-- ==== Sys2Proof/Word.lean ====
section
/-! DEFINITION. The word types of the block: bytes of the command port and 32-bit register words (00_scope.md R6). -/

namespace Sys2Proof

/-- A byte of the command port or of a host bit buffer (20_memory.md R43). -/
abbrev Byte := BitVec 8

/-- A 32-bit word: every register access moves exactly one (20_memory.md R48). -/
abbrev Word := BitVec 32

end Sys2Proof
end

