-- ==== Sys2Proof/Machine/Bits.lean ====
section
/-! DEFINITION. Bits of words and of host bit buffers: everything is least significant bit first (20_memory.md R43,
R44). -/

namespace Sys2Proof.Machine

/-- The low `count` bits of a word, bit 0 first (R44, 30_encoding.md R71); bits past the width are 0. -/
def bitsOf {w : Nat} (v : BitVec w) (count : Nat) : List Bool := (List.range count).map v.getLsbD

/-- The number whose bit `i` is the `i`-th of the list. -/
def natOfBits : List Bool → Nat
  | [] => 0
  | b :: bs => b.toNat + 2 * natOfBits bs

/-- The word whose bit `i` is the `i`-th of the list, zero above (41_swd_sequence.md R104). -/
def wordOfBits (w : Nat) (bs : List Bool) : BitVec w := BitVec.ofNat w (natOfBits bs)

/-- Bit `i` of a host bit buffer: bit `i mod 8` of byte `i div 8` (R43). No instruction reads past the buffer's end: see
`shiftLevel` (log 31). -/
def bufferBit (buf : List Byte) (i : Nat) : Bool := (buf.getD (i / 8) 0).getLsbD (i % 8)

/-- The first `count` bits of a host bit buffer. -/
def bufferBits (buf : List Byte) (count : Nat) : List Bool := (List.range count).map (bufferBit buf)

/-- Bits packed into `k` bytes, the bits past the last one 0 (R43, 40_jtag_tap.md R82). -/
def packBytes : Nat → List Bool → List Byte
  | 0, _ => []
  | k + 1, bs => wordOfBits 8 (bs.take 8) :: packBytes k (bs.drop 8)

/-- Bits packed into as few bytes as hold them (R43). -/
def packBits (bs : List Bool) : List Byte := packBytes ((bs.length + 7) / 8) bs

/-- A bit as a byte-wide field at position `i` (42_swd_packet.md R121: `bit << i`). -/
def bitAt (b : Bool) (i : Nat) : Byte := (BitVec.ofBool b).zeroExtend 8 <<< i

/-- The four bytes of a word, lowest first (log 1). -/
def bytesOfWord (v : Word) : List Byte :=
  [v.extractLsb' 0 8, v.extractLsb' 8 8, v.extractLsb' 16 8, v.extractLsb' 24 8]

/-- The word of four bytes, lowest first (log 1). -/
def wordOfBytes (b0 b1 b2 b3 : Byte) : Word := b3 ++ b2 ++ b1 ++ b0

end Sys2Proof.Machine
end

