-- ==== Sys2Proof/Config.lean ====
section
/-! DEFINITION. What one build of the block fixes (00_scope.md R5) and the free values of its environment. -/

namespace Sys2Proof

/-- The sixteen TAP controller states (40_jtag_tap.md R88; PRESUMED, GK6, log 16). -/
inductive TapState where
  | testLogicReset | runTestIdle
  | selectDrScan | captureDr | shiftDr | exit1Dr | pauseDr | exit2Dr | updateDr
  | selectIrScan | captureIr | shiftIr | exit1Ir | pauseIr | exit2Ir | updateIr
  deriving DecidableEq, Repr, Inhabited

/-- The OPEN parameters of R5: the spec gives none of them a value. The two that are integers of at least 1 are held
as their predecessors, so that no value breaks the constraint (92_eei_decisions.md, "Open parameters, gathered"). -/
structure OpenParams where
  /-- `RETRY_BOUND` - 1 (D14). -/
  retryPred : Nat
  /-- `HAS_TRST` (D10). -/
  hasTrst : Bool
  /-- `DELAY_RESET` (D23). -/
  delayReset : Word
  /-- `DP_V2` (D22). -/
  dpV2 : Bool
  /-- `JTAG_SHIFT_MAX` - 1 (D11). -/
  jtagShiftPred : Nat
  deriving DecidableEq, Repr, Inhabited

/-- All parameters of R5: the OPEN ones and those the spec gives from general knowledge (GK1, GK2, GK3) and takes
from the source's literal (D35). Every operation takes them as an argument. -/
structure Params where
  /-- The OPEN parameters. -/
  open5 : OpenParams
  /-- `START_BIT` (GK1). -/
  startBit : Bool
  /-- `ACK_OK` (GK2). -/
  ackOk : BitVec 3
  /-- `ACK_WAIT` (GK2). -/
  ackWait : BitVec 3
  /-- `ACK_FAULT` (GK2). -/
  ackFault : BitVec 3
  /-- `A_ABORT`, a value of A[3:2] (GK3). -/
  aAbort : BitVec 2
  /-- `A_IDCODE` (GK3). -/
  aIdcode : BitVec 2
  /-- `A_CTRLSTAT` (GK3). -/
  aCtrlstat : BitVec 2
  /-- `A_SELECT` (GK3). -/
  aSelect : BitVec 2
  /-- `A_RDBUFF` (GK3). -/
  aRdbuff : BitVec 2
  /-- The soft-reset TMS pattern (40_jtag_tap.md R84, D35). -/
  softReset : Word
  /-- The number of cycles of the soft reset (R84: "6-clock all-ones"). -/
  softResetCount : Nat
  deriving DecidableEq, Repr

/-- `RETRY_BOUND`, at least 1 (R5). -/
def Params.retryBound (p : Params) : Nat := p.open5.retryPred + 1

/-- `JTAG_SHIFT_MAX`, at least 1 (R5). -/
def Params.jtagShiftMax (p : Params) : Nat := p.open5.jtagShiftPred + 1

namespace Config

/-- `SEQ_MAX` (R5): the widest SWD sequence. -/
def seqMax : Nat := 32

/-- `TMS_SEQ_MAX` (R5): the widest TMS pattern. -/
def tmsSeqMax : Nat := 32

/-- The values R5 gives, over any OPEN ones (PRESUMED, log 14: general knowledge GK1 to GK3). -/
def paramsOver (o : OpenParams) : Params where
  open5 := o
  startBit := true
  ackOk := 1
  ackWait := 2
  ackFault := 4
  aAbort := 0
  aIdcode := 0
  aCtrlstat := 1
  aSelect := 2
  aRdbuff := 3
  softReset := 0x3F
  softResetCount := 6

/-- The OPEN parameters of the build at hand: no body, so no proof can see a value (log 13). -/
opaque openParams : OpenParams

/-- The parameters the machine runs with. -/
def params : Params := paramsOver openParams

/-- The level the target answers on TDO at its `n`-th sample after the presented levels ran out: a free value (U4, log 7). -/
opaque freeTdoLevel : Nat → Bool

/-- The same for SWDIO_IN (U4, log 7). -/
opaque freeSwdioLevel : Nat → Bool

/-- The level a data shift puts on TDI in a cycle for which its buffer holds no bit (40_jtag_tap.md R82 asks for at least
`count` bits and says nothing of fewer): a free value of the number of commands ended before it and of the cycle
(log 31). -/
opaque freeTdiLevel : Nat → Nat → Bool

/-- The TAP state of the target at the block's power-up: R26 gives the ghost no reset value (log 16). -/
opaque tapAtPowerUp : TapState

end Config
end Sys2Proof
end

