-- ==== Sys2Proof/Syntax.lean ====
section
/-! DEFINITION. The instructions: one constructor per row of spec/opcode_table.json, and the formats they stand in
(30_encoding.md R60). -/

namespace Sys2Proof

/-- The formats of R60. A packet at the port carries one of them; what the bits mean depends on it. -/
inductive Format where
  /-- A command of the host (R70). -/
  | cmd
  /-- An 8-bit SWD request (R61). -/
  | req
  /-- A 3-bit acknowledge (R63). -/
  | ack
  /-- A data phase the block drives (R64, R124). -/
  | dataW
  /-- A data phase the target drives (R64, R125). -/
  | dataR
  /-- A turnaround cycle (R65). -/
  | turn
  /-- A TMS pattern (R67). -/
  | tmsseq
  /-- A JTAG data shift (R67). -/
  | shift
  deriving DecidableEq, Repr

/-- The instructions. A `count` is a plain unsigned number (R71); `addr` is the address operand of 43_dp_sequencer.md
R140; a `tdi` buffer is packed as 20_memory.md R43 says. -/
inductive Instr where
  /-- 0x00, 40_jtag_tap.md R84. -/
  | jtagReset
  /-- 0x01, R80. -/
  | jtagNext (tms tdi : Bool)
  /-- 0x02, R81. -/
  | shiftTmsSequence (bits : Word) (count : Nat)
  /-- 0x03, R82. -/
  | shiftData (tdi : List Byte) (count : Nat) (finalTms : Bool)
  /-- 0x04, R83. -/
  | shiftDataDiscardOutput (tdi : List Byte) (count : Nat) (finalTms : Bool)
  /-- 0x08, 41_swd_sequence.md R106. -/
  | seqOut (bits : Word) (count : Nat)
  /-- 0x09, R107. -/
  | seqOutWithParity (value : Word) (count : Nat)
  /-- 0x0A, R104. -/
  | seqIn (count : Nat)
  /-- 0x0B, R105. -/
  | seqInWithParity (count : Nat)
  /-- 0x0C, R111. -/
  | setDelay (n : Word)
  /-- 0x10, 43_dp_sequencer.md R141. -/
  | lowAccess (rnw : Bool) (addr : BitVec 9) (value : Word)
  /-- 0x11, R146. -/
  | dpRead (addr : Byte)
  /-- 0x12, R147. -/
  | dpWrite (addr : Byte) (value : Word)
  /-- 0x13, R148. -/
  | dpAbort (value : Word)
  /-- 0x14, R152. -/
  | apRead (apsel : Byte) (addr : Byte)
  /-- 0x15, R153. -/
  | apWrite (apsel : Byte) (addr : Byte) (value : Word)
  /-- 0x16, R154. -/
  | dpAttach
  /-- 0x17, R155. -/
  | faultRead
  /-- 0x18, R155. -/
  | idcodeRead
  /-- 0x19, R155. -/
  | targetidRead
  -- the sixteen requests of 30_encoding.md R62
  | reqDpWA0 | reqDpWA4 | reqDpWA8 | reqDpWAC
  | reqDpRA0 | reqDpRA4 | reqDpRA8 | reqDpRAC
  | reqApWA0 | reqApWA4 | reqApWA8 | reqApWAC
  | reqApRA0 | reqApRA4 | reqApRA8 | reqApRAC
  -- the eight acknowledge values of R63 and R73
  | ackOk | ackWait | ackFault
  | ackInvalid0 | ackInvalid3 | ackInvalid5 | ackInvalid6 | ackInvalid7
  /-- A write data phase; its parity bit is a function of `data` (R64, R124). -/
  | dataW (data : Word)
  /-- A read data phase: the 32 bits and the parity bit the target sends (R64, R125). -/
  | dataR (data : Word) (par : Bool)
  /-- One turnaround (R65, R103). -/
  | turn
  /-- `count` cycles of TCK with TMS from `bits` (R67). -/
  | tmsseq (bits : Word) (count : Nat)
  /-- `count` cycles of TCK with TDI from `tdi` (R67). -/
  | shift (tdi : List Byte) (count : Nat) (finalTms : Bool)
  deriving DecidableEq, Repr

/-- The format an instruction is presented in. -/
def Instr.format : Instr → Format
  | .jtagReset | .jtagNext _ _ | .shiftTmsSequence _ _ | .shiftData _ _ _ | .shiftDataDiscardOutput _ _ _
  | .seqOut _ _ | .seqOutWithParity _ _ | .seqIn _ | .seqInWithParity _ | .setDelay _
  | .lowAccess _ _ _ | .dpRead _ | .dpWrite _ _ | .dpAbort _ | .apRead _ _ | .apWrite _ _ _
  | .dpAttach | .faultRead | .idcodeRead | .targetidRead => .cmd
  | .reqDpWA0 | .reqDpWA4 | .reqDpWA8 | .reqDpWAC | .reqDpRA0 | .reqDpRA4 | .reqDpRA8 | .reqDpRAC
  | .reqApWA0 | .reqApWA4 | .reqApWA8 | .reqApWAC | .reqApRA0 | .reqApRA4 | .reqApRA8 | .reqApRAC => .req
  | .ackOk | .ackWait | .ackFault | .ackInvalid0 | .ackInvalid3 | .ackInvalid5 | .ackInvalid6 | .ackInvalid7 => .ack
  | .dataW _ => .dataW
  | .dataR _ _ => .dataR
  | .turn => .turn
  | .tmsseq _ _ => .tmsseq
  | .shift _ _ _ => .shift

end Sys2Proof
end

