-- ==== Sys2Proof/Machine/State.lean ====
section
/-! DEFINITION. The state of the block as plain data (10_state.md R10 to R26), its reset, and the reasons a step can
stop. -/

namespace Sys2Proof.Machine

/-- The output pins a `W` event writes (10_state.md R11). `SWDIO_OE` is written by `M` events only. -/
inductive OutPin where
  | tck | tms | tdi | trst | swclk | swdioOut
  deriving DecidableEq, Repr

/-- The input pins (R12). -/
inductive InPin where
  | tdo | swdioIn
  deriving DecidableEq, Repr

/-- The direction of the SWDIO line (R13). -/
inductive Dir where
  | float | drive
  deriving DecidableEq, Repr

/-- The pin events (00_scope.md R7). -/
inductive PinEvent where
  /-- `W(P, b)`. -/
  | write (pin : OutPin) (level : Bool)
  /-- `S(P) = b`. -/
  | sample (pin : InPin) (level : Bool)
  /-- `M(FLOAT)` or `M(DRIVE)`. -/
  | mode (dir : Dir)
  /-- `D`, one half-clock delay. -/
  | delay
  deriving DecidableEq, Repr

/-- The sequencer's phases (R17). -/
inductive Phase where
  | idle | req | ack | wdata | rdata | done
  deriving DecidableEq, Repr

/-- Why a command is refused (60_exceptions.md R175). -/
inductive Reason where
  | badCommand | badAddress | badCount | noValue
  deriving DecidableEq, Repr

/-- The value an Ok outcome carries (30_encoding.md R70, column "result value"). -/
inductive Value where
  /-- The command has no result value. -/
  | nothing
  /-- `tdo` or `fault`. -/
  | bit (b : Bool)
  /-- `bits`, `value`, `idcode` or `targetid`. -/
  | word (v : Word)
  /-- `value` and `parity_ok`. -/
  | wordParity (v : Word) (parityOk : Bool)
  /-- `tdo_bits`, packed as 20_memory.md R43 says. -/
  | buffer (bytes : List Byte)
  deriving DecidableEq, Repr

/-- The outcome of a command (R72). -/
inductive CmdOutcome where
  | ok (v : Value)
  | waitTimeout
  | protocolFault
  | parityError (received : Word)
  | invalidAck (received : BitVec 3)
  | refused (reason : Reason)
  deriving DecidableEq, Repr

/-- The outcome codes of R72. -/
def CmdOutcome.code : CmdOutcome → Nat
  | .ok _ => 0
  | .waitTimeout => 1
  | .protocolFault => 2
  | .parityError _ => 3
  | .invalidAck _ => 4
  | .refused _ => 5

/-- An input pin as the environment's part of the state: the levels it will present at the next samples and, for when
they have run out, how many free values were drawn (R12, U4; the model's own, log 7). -/
structure InputPin where
  queue : List Bool
  drawn : Nat
  deriving DecidableEq, Repr

/-- A packet at the port: a format and its bytes (30_encoding.md R60, log 1, log 2). -/
structure Packet where
  format : Format
  bytes : List Byte
  deriving DecidableEq, Repr

/-- The state (R10). -/
structure State where
  /-- `TCK` (R11). -/
  tck : Bool
  /-- `TMS` (R11). -/
  tms : Bool
  /-- `TDI` (R11). -/
  tdi : Bool
  /-- `TRST` (R11): 0 asserts, 1 releases. -/
  trst : Bool
  /-- `SWCLK` (R11). -/
  swclk : Bool
  /-- `SWDIO_OUT` (R11). -/
  swdioOut : Bool
  /-- `SWDIO_OE` (R11): 1 drives. -/
  swdioOe : Bool
  /-- `swd_dir` (R13). -/
  swdDir : Dir
  /-- `delay_count` (R14). -/
  delayCount : Word
  /-- `REQ` (R16). -/
  req : Byte
  /-- `ACK` (R16). -/
  ack : BitVec 3
  /-- `WDATA` (R16). -/
  wdata : Word
  /-- `RDATA` (R16). -/
  rdata : Word
  /-- `POK` (R16). -/
  pok : Bool
  /-- `phase` (R17). -/
  phase : Phase
  /-- `tries` (R17). -/
  tries : Nat
  /-- `fault` (R20). -/
  fault : Bool
  /-- `idcode` (R21); none is the spec's "no value". -/
  idcode : Option Word
  /-- `targetid` (R22); none is the spec's "no value". -/
  targetid : Option Word
  /-- `sel_valid` (R23). -/
  selValid : Bool
  /-- `sel_apsel` (R23). -/
  selApsel : BitVec 8
  /-- `sel_apbank` (R23). -/
  selApbank : BitVec 4
  /-- `sel_dpbank` (R23). -/
  selDpbank : BitVec 4
  /-- The ghost `tap_shadow` (R26): no rule of the block reads it. -/
  tapShadow : TapState
  /-- The environment's `TDO` (R12, log 7). -/
  tdo : InputPin
  /-- The environment's `SWDIO_IN` (R12, log 7). -/
  swdioIn : InputPin
  /-- The packets presented and not yet taken (R70, log 2). -/
  port : List Packet
  /-- The pin events so far, in order (R7, 70_reset_and_hazards.md R206). -/
  trace : List PinEvent
  /-- The outcomes handed to the host so far, in order (R72, R206). -/
  outcomes : List CmdOutcome
  deriving DecidableEq, Repr

/-- Why the machine stops. -/
inductive Fault where
  /-- Raised by every command presented while `phase` is not S_IDLE: the spec gives that situation no step, "stuck"
  (60_exceptions.md R184 (a), R185, U7). Safe: the machine stops where the spec says nothing happens. -/
  | commandWhileBusy
  deriving DecidableEq, Repr

/-- Why the model has no meaning for what it was given. -/
inductive Refusal where
  /-- Raised by exec's arm of an instruction that has no meaning yet. Safe. No arm raises it. -/
  | notModelled (mnemonic : String)
  /-- Raised by step for a packet that is none of the spec's formats: it ends inside an operand, sets a bit outside an
  operand's width, or is no request, acknowledge, data phase or wire string (30_encoding.md R60, R73 (a), log 20). An
  unknown command code is not this: it has the outcome Refused(BadCommand). Safe. -/
  | malformedPacket
  deriving DecidableEq, Repr

/-- The state right after power-up (70_reset_and_hazards.md R200). The registers R200 calls unspecified hold 0
(DESIGN CHOICE, log 8, 9, 10). -/
def State.reset : State where
  tck := false
  tms := false
  tdi := false
  trst := true
  swclk := false
  swdioOut := false
  swdioOe := false
  swdDir := .float
  delayCount := Config.params.open5.delayReset
  req := 0
  ack := 0
  wdata := 0
  rdata := 0
  pok := false
  phase := .idle
  tries := 0
  fault := false
  idcode := none
  targetid := none
  selValid := false
  selApsel := 0
  selApbank := 0
  selDpbank := 0
  tapShadow := Config.tapAtPowerUp
  tdo := ⟨[], 0⟩
  swdioIn := ⟨[], 0⟩
  port := []
  trace := []
  outcomes := []

end Sys2Proof.Machine
end

