-- ==== Sys2Proof/Machine/Ops.lean ====
section
/-! DEFINITION. The operations every command is made of: pin events (00_scope.md R7, R8) and the end of a command
(30_encoding.md R72, 70_reset_and_hazards.md R206). The block has no exception to take and none to return from
(60_exceptions.md R170): handing an outcome to the host is what stands in that place, and it is one shared operation. -/

namespace Sys2Proof.Machine

/-- The TAP state after a rising edge of TCK with TMS at the given level (40_jtag_tap.md R88; PRESUMED, log 16). -/
def tapNext : TapState → Bool → TapState
  | .testLogicReset, tms => if tms then .testLogicReset else .runTestIdle
  | .runTestIdle, tms => if tms then .selectDrScan else .runTestIdle
  | .selectDrScan, tms => if tms then .selectIrScan else .captureDr
  | .captureDr, tms => if tms then .exit1Dr else .shiftDr
  | .shiftDr, tms => if tms then .exit1Dr else .shiftDr
  | .exit1Dr, tms => if tms then .updateDr else .pauseDr
  | .pauseDr, tms => if tms then .exit2Dr else .pauseDr
  | .exit2Dr, tms => if tms then .updateDr else .shiftDr
  | .updateDr, tms => if tms then .selectDrScan else .runTestIdle
  | .selectIrScan, tms => if tms then .testLogicReset else .captureIr
  | .captureIr, tms => if tms then .exit1Ir else .shiftIr
  | .shiftIr, tms => if tms then .exit1Ir else .shiftIr
  | .exit1Ir, tms => if tms then .updateIr else .pauseIr
  | .pauseIr, tms => if tms then .exit2Ir else .pauseIr
  | .exit2Ir, tms => if tms then .updateIr else .shiftIr
  | .updateIr, tms => if tms then .selectDrScan else .runTestIdle

/-- A pin event happens. -/
def emit (e : PinEvent) (s : State) : State := { s with trace := s.trace ++ [e] }

/-- `pin[P] <- b` (R8). A rising edge of TCK also moves the ghost (10_state.md R26). -/
def writePin (pin : OutPin) (b : Bool) (s : State) : State :=
  let s := emit (.write pin b) s
  match pin with
  | .tck => { s with tck := b, tapShadow := if b then tapNext s.tapShadow s.tms else s.tapShadow }
  | .tms => { s with tms := b }
  | .tdi => { s with tdi := b }
  | .trst => { s with trst := b }
  | .swclk => { s with swclk := b }
  | .swdioOut => { s with swdioOut := b }

/-- The level an input presents at its next sample: the next one queued, else a free value (U4, log 7). -/
def InputPin.level (p : InputPin) (free : Nat → Bool) : Bool :=
  match p.queue with
  | [] => free p.drawn
  | b :: _ => b

/-- The input after one sample. -/
def InputPin.next (p : InputPin) : InputPin :=
  match p.queue with
  | [] => { p with drawn := p.drawn + 1 }
  | _ :: bs => { p with queue := bs }

/-- The next `n` levels an input presents, and the input after them. -/
def InputPin.draw (free : Nat → Bool) : Nat → InputPin → List Bool × InputPin
  | 0, p => ([], p)
  | n + 1, p => (p.level free :: (draw free n p.next).1, (draw free n p.next).2)

/-- `sample(P)` (R8). -/
def samplePin (pin : InPin) (s : State) : Bool × State :=
  match pin with
  | .tdo =>
    let b := s.tdo.level Config.freeTdoLevel
    (b, emit (.sample .tdo b) { s with tdo := s.tdo.next })
  | .swdioIn =>
    let b := s.swdioIn.level Config.freeSwdioLevel
    (b, emit (.sample .swdioIn b) { s with swdioIn := s.swdioIn.next })

/-- `mode(m)` (R8): writes `SWDIO_OE` (10_state.md R11). -/
def setMode (dir : Dir) (s : State) : State :=
  let s := emit (.mode dir) s
  { s with swdioOe := decide (dir = .drive) }

/-- The events of one half-clock delay: one `D` when `delay_count` is not 0, nothing otherwise (R7, R8). -/
def delayEvents (delayCount : Word) : List PinEvent := if delayCount = 0 then [] else [.delay]

/-- `delay()` (R8). -/
def delay (s : State) : State := { s with trace := s.trace ++ delayEvents s.delayCount }

/-- The target presents these levels at the next samples of SWDIO_IN (log 7). -/
def presentSwdio (bs : List Bool) (s : State) : State :=
  { s with swdioIn := { s.swdioIn with queue := bs ++ s.swdioIn.queue } }

/-- The end of a command: its one outcome is handed to the host (R72, R206). -/
def endCommand (r : CmdOutcome × State) : State := { r.2 with outcomes := r.2.outcomes ++ [r.1] }

/-- A command runs from its first pin event to its outcome in one step (20_memory.md R49, log 4). While the sequencer is
not in S_IDLE there is no step for it (60_exceptions.md R184 (a), log 6). -/
def runCommand (body : State → CmdOutcome × State) (s : State) : Host.Outcome State Fault Refusal :=
  if s.phase = .idle then .next (endCommand (body s)) else .fault .commandWhileBusy

/-- The second of two accesses is made only if the first ended Ok (43_dp_sequencer.md R150). -/
def andThenOk (r : CmdOutcome × State) (next : State → CmdOutcome × State) : CmdOutcome × State :=
  match r.1 with
  | .ok _ => next r.2
  | o => (o, r.2)

end Sys2Proof.Machine
end

