-- ==== Sys2Proof/Machine/Jtag.lean ====
section
/-! DEFINITION. The JTAG TAP driver (40_jtag_tap.md R80 to R89). -/

namespace Sys2Proof.Machine

/-- One TCK cycle (R80). -/
def jtagNext (tms tdi : Bool) (s : State) : Bool × State :=
  let s := writePin .tms tms s
  let s := writePin .tdi tdi s
  let s := writePin .tck true s
  let s := delay s
  let r := samplePin .tdo s
  let s := writePin .tck false r.2
  (r.1, delay s)

/-- One cycle per TMS level, TDI held high, TDO dropped (the loop of R81). -/
def clockTms : List Bool → State → State
  | [], s => s
  | tms :: rest, s => clockTms rest (jtagNext tms true s).2

/-- One cycle per TDI level; TMS is `finalTms` in the last and 0 in the others (the loop of R82). -/
def clockData (finalTms : Bool) : List Bool → State → List Bool × State
  | [], s => ([], s)
  | tdi :: rest, s =>
    let r := jtagNext (rest.isEmpty && finalTms) tdi s
    let q := clockData finalTms rest r.2
    (r.1 :: q.1, q.2)

/-- The data shift with one buffer for input and output, of at least `count` bits: byte by byte, each input byte read whole
before the output byte is stored over it (20_memory.md R54, R85), the output bits past the last one 0 (R82). Bytes past the
last output byte stay (log 32). -/
def clockDataInPlace (finalTms : Bool) : Nat → List Byte → State → List Byte × State
  | _, [], s => ([], s)
  | count, b :: rest, s =>
    if count = 0 then (b :: rest, s)
    else
      let r := clockData (decide (count ≤ 8) && finalTms) (bitsOf b (min count 8)) s
      let q := clockDataInPlace finalTms (count - 8) rest r.2
      (wordOfBits 8 r.1 :: q.1, q.2)

/-- `shift_tms_sequence` (R81). -/
def shiftTmsSequence (bits : Word) (count : Nat) (s : State) : CmdOutcome × State :=
  if Config.tmsSeqMax < count then (.refused .badCount, s)
  else (.ok .nothing, clockTms (bitsOf bits count) s)

/-- The TDI level of cycle `i` of a data shift (20_memory.md R43), with `k` commands ended before it: bit `i` of the buffer, and
a free value where the buffer holds none (log 31). -/
def shiftLevel (tdi : List Byte) (k i : Nat) : Bool :=
  if i < 8 * tdi.length then bufferBit tdi i else Config.freeTdiLevel k i

/-- The TDI levels of a data shift of `count` cycles. -/
def shiftLevels (tdi : List Byte) (count k : Nat) : List Bool := (List.range count).map (shiftLevel tdi k)

/-- `shift_data` (R82): the count is tested before anything else. -/
def shiftData (p : Params) (tdi : List Byte) (count : Nat) (finalTms : Bool) (s : State) : CmdOutcome × State :=
  if count = 0 ∨ p.jtagShiftMax < count then (.refused .badCount, s)
  else
    let r := clockData finalTms (shiftLevels tdi count s.outcomes.length) s
    (.ok (.buffer (packBits r.1)), r.2)

/-- `shift_data_discard_output` (R83): the sampled bits are dropped. -/
def shiftDataDiscardOutput (p : Params) (tdi : List Byte) (count : Nat) (finalTms : Bool) (s : State) :
    CmdOutcome × State :=
  if count = 0 ∨ p.jtagShiftMax < count then (.refused .badCount, s)
  else (.ok .nothing, (clockData finalTms (shiftLevels tdi count s.outcomes.length) s).2)

/-- The TRST pulse, where the line exists (R84; PRESUMED polarity, log 17). -/
def pulseTrst (p : Params) (s : State) : State :=
  if p.open5.hasTrst then writePin .trst true (writePin .trst false s) else s

/-- `jtag_reset` (R84). -/
def jtagReset (p : Params) (s : State) : CmdOutcome × State :=
  (.ok .nothing, clockTms (bitsOf p.softReset p.softResetCount) (pulseTrst p s))

/-! ### Meanings -/

/-- R84. -/
def execJtagReset (s : State) : Host.Outcome State Fault Refusal := runCommand (jtagReset Config.params) s

/-- R80. -/
def execJtagNext (tms tdi : Bool) (s : State) : Host.Outcome State Fault Refusal :=
  runCommand (fun s => let r := jtagNext tms tdi s; (.ok (.bit r.1), r.2)) s

/-- R81. -/
def execShiftTmsSequence (bits : Word) (count : Nat) (s : State) : Host.Outcome State Fault Refusal :=
  runCommand (shiftTmsSequence bits count) s

/-- R82. -/
def execShiftData (tdi : List Byte) (count : Nat) (finalTms : Bool) (s : State) : Host.Outcome State Fault Refusal :=
  runCommand (shiftData Config.params tdi count finalTms) s

/-- R83. -/
def execShiftDataDiscardOutput (tdi : List Byte) (count : Nat) (finalTms : Bool) (s : State) :
    Host.Outcome State Fault Refusal :=
  runCommand (shiftDataDiscardOutput Config.params tdi count finalTms) s

/-- Format TMSSEQ on the wire (30_encoding.md R67): the cycles alone (log 2). -/
def execTmsseq (bits : Word) (count : Nat) (s : State) : Host.Outcome State Fault Refusal :=
  .next (clockTms (bitsOf bits count) s)

/-- Format SHIFT on the wire (R67): the cycles alone (log 2), however many (log 30). -/
def execShift (tdi : List Byte) (count : Nat) (finalTms : Bool) (s : State) : Host.Outcome State Fault Refusal :=
  .next (clockData finalTms (shiftLevels tdi count s.outcomes.length) s).2

end Sys2Proof.Machine
end

