-- ==== Sys2Proof/Machine/Flags.lean ====
section
/-! DEFINITION. The one computed flag of the block: parity (41_swd_sequence.md R108, 44_cross_family_laws.md R160).
There are no condition codes (10_state.md R24). -/

namespace Sys2Proof.Machine

/-- The number of 1 bits (00_scope.md R6). -/
def popcount {w : Nat} (v : BitVec w) : Nat := (bitsOf v w).count true

/-- `parity(v) = popcount(v) mod 2` (R108; conflict C1 is decided for the formula). -/
def parity {w : Nat} (v : BitVec w) : Bool := popcount v % 2 == 1

/-- The parity bit of a request: the exclusive or of APnDP, RnW, A[2], A[3] (30_encoding.md R62). -/
def requestParity (apndp rnw : Bool) (a : BitVec 2) : Bool := apndp ^^ rnw ^^ a.getLsbD 0 ^^ a.getLsbD 1

end Sys2Proof.Machine
end

