-- ==== Sys2Proof/Machine/Swd.lean ====
section
/-! DEFINITION. The SWD sequence layer: turnaround and clock control (41_swd_sequence.md R100 to R113). -/

namespace Sys2Proof.Machine

/-- The two halves of one SWCLK cycle. -/
def swclkPulse (s : State) : State :=
  let s := writePin .swclk true s
  let s := delay s
  let s := writePin .swclk false s
  delay s

/-- `swd_clock_out` (R101). -/
def swdClockOut (b : Bool) (s : State) : State := swclkPulse (writePin .swdioOut b s)

/-- `swd_clock_in` (R102). -/
def swdClockIn (s : State) : Bool × State :=
  let r := samplePin .swdioIn s
  (r.1, swclkPulse r.2)

/-- `turnaround` (R103): the only reader and writer of `swd_dir` and the only writer of `SWDIO_OE` (R109). -/
def turnaround (dir : Dir) (s : State) : State :=
  if dir = s.swdDir then s
  else
    let s := { s with swdDir := dir }
    match dir with
    | .float => swclkPulse (setMode .float s)
    | .drive => setMode .drive (swclkPulse s)

/-- One output cycle per bit. -/
def clockOutBits : List Bool → State → State
  | [], s => s
  | b :: rest, s => clockOutBits rest (swdClockOut b s)

/-- `n` input cycles; the `k`-th yields the `k`-th bit (R102). -/
def clockInBits : Nat → State → List Bool × State
  | 0, s => ([], s)
  | n + 1, s =>
    let r := swdClockIn s
    let q := clockInBits n r.2
    (r.1 :: q.1, q.2)

/-- `seq_out` for a count in range (R106). -/
def sendBits (bits : Word) (count : Nat) (s : State) : State := clockOutBits (bitsOf bits count) (turnaround .drive s)

/-- `seq_out_with_parity` for a count in range (R107): the parity is that of all 32 bits. -/
def sendBitsParity (value : Word) (count : Nat) (s : State) : State :=
  swdClockOut (parity value) (sendBits value count s)

/-- `seq_in` for a count in range (R104): the line stays floated. -/
def receiveBits (count : Nat) (s : State) : Word × State :=
  let r := clockInBits count (turnaround .float s)
  (wordOfBits 32 r.1, r.2)

/-- `seq_in_with_parity` for a count in range (R105): the line is driven again at the end. -/
def receiveBitsParity (count : Nat) (s : State) : (Word × Bool) × State :=
  let r := receiveBits count s
  let q := swdClockIn r.2
  ((r.1, q.1 == parity r.1), turnaround .drive q.2)

/-- `seq_out` (R106, R113). -/
def seqOut (bits : Word) (count : Nat) (s : State) : CmdOutcome × State :=
  if Config.seqMax < count then (.refused .badCount, s) else (.ok .nothing, sendBits bits count s)

/-- `seq_out_with_parity` (R107, R113). -/
def seqOutWithParity (value : Word) (count : Nat) (s : State) : CmdOutcome × State :=
  if Config.seqMax < count then (.refused .badCount, s) else (.ok .nothing, sendBitsParity value count s)

/-- `seq_in` (R104, R113). -/
def seqIn (count : Nat) (s : State) : CmdOutcome × State :=
  if Config.seqMax < count then (.refused .badCount, s)
  else
    let r := receiveBits count s
    (.ok (.word r.1), r.2)

/-- `seq_in_with_parity` (R105, R113). -/
def seqInWithParity (count : Nat) (s : State) : CmdOutcome × State :=
  if Config.seqMax < count then (.refused .badCount, s)
  else
    let r := receiveBitsParity count s
    (.ok (.wordParity r.1.1 r.1.2), r.2)

/-- `set_delay` (R111). -/
def setDelay (n : Word) (s : State) : CmdOutcome × State := (.ok .nothing, { s with delayCount := n })

/-- TURN (30_encoding.md R65): the empty sequence that spends a cycle, that of `seq_out` from FLOAT and that of `seq_in` from
DRIVE. `turnaround` alone reads `swd_dir`, and is called from the sequence commands alone (R100, R109); which of the two spent
the cycle is seen from the trace. -/
def turnLine (s : State) : State :=
  let t := (seqOut 0 0 s).2
  if t.trace = s.trace then (seqIn 0 s).2 else t

/-! ### Meanings -/

/-- R106. -/
def execSeqOut (bits : Word) (count : Nat) (s : State) : Host.Outcome State Fault Refusal :=
  runCommand (seqOut bits count) s

/-- R107. -/
def execSeqOutWithParity (value : Word) (count : Nat) (s : State) : Host.Outcome State Fault Refusal :=
  runCommand (seqOutWithParity value count) s

/-- R104. -/
def execSeqIn (count : Nat) (s : State) : Host.Outcome State Fault Refusal := runCommand (seqIn count) s

/-- R105. -/
def execSeqInWithParity (count : Nat) (s : State) : Host.Outcome State Fault Refusal :=
  runCommand (seqInWithParity count) s

/-- R111. -/
def execSetDelay (n : Word) (s : State) : Host.Outcome State Fault Refusal := runCommand (setDelay n) s

/-- Format TURN on the wire (R65): one throwaway cycle to the other direction, as `seq_out` or `seq_in` of no bits spends it
(R103, R104, R106), and no outcome (log 2, log 26). -/
def execTurn (s : State) : Host.Outcome State Fault Refusal := .next (turnLine s)

end Sys2Proof.Machine
end

