-- ==== Sys2Proof/Machine/Framer.lean ====
section
/-! DEFINITION. The SWD packet framer (42_swd_packet.md R121 to R129), and the requests, acknowledges and data phases of
the opcode table: each is one step of a transaction, and moves the phase machine of 43_dp_sequencer.md R141 on when
that machine is in its row (log 26). -/

namespace Sys2Proof.Machine

/-- `make_request` (R121). -/
def makeRequest (p : Params) (apndp rnw : Bool) (a : BitVec 2) : Byte :=
  bitAt p.startBit 0 ||| bitAt apndp 1 ||| bitAt rnw 2 ||| bitAt (a.getLsbD 0) 3 ||| bitAt (a.getLsbD 1) 4
    ||| bitAt (requestParity apndp rnw a) 5 ||| bitAt true 7

/-- APnDP of a request byte (30_encoding.md R61). -/
def reqApndp (r : Byte) : Bool := r.getLsbD 1

/-- RnW of a request byte (R61). -/
def reqRnw (r : Byte) : Bool := r.getLsbD 2

/-- A[3:2] of a request byte (R61). -/
def reqSlot (r : Byte) : BitVec 2 := r.extractLsb' 3 2

/-- The classes of an acknowledge (R123). -/
inductive AckClass where
  | ok | wait | fault | invalid
  deriving DecidableEq, Repr

/-- `decode_ack` (R123): all three bits are compared. -/
def decodeAck (p : Params) (ack : BitVec 3) : AckClass :=
  if ack = p.ackOk then .ok else if ack = p.ackWait then .wait else if ack = p.ackFault then .fault else .invalid

/-- Step 1 of a transaction: the request (R126). -/
def sendRequest (p : Params) (apndp rnw : Bool) (a : BitVec 2) (s : State) : State :=
  let r := makeRequest p apndp rnw a
  sendBits (r.zeroExtend 32) 8 { s with req := r }

/-- Step 2: the acknowledge (R126). -/
def receiveAck (s : State) : State :=
  let r := receiveBits 3 s
  { r.2 with ack := r.1.setWidth 3 }

/-- The write data phase (R124). -/
def writeDataPhase (data : Word) (s : State) : State := sendBitsParity data 32 { s with wdata := data }

/-- The read data phase (R125). -/
def readDataPhase (s : State) : State :=
  let r := receiveBitsParity 32 s
  { r.2 with rdata := r.1.1, pok := r.1.2 }

/-- Step 3: the data phase of a read or of a write (R126). -/
def dataPhase (rnw : Bool) (wdata : Word) (s : State) : State :=
  if rnw then readDataPhase s else writeDataPhase wdata s

/-- `swd_transaction` (R126): a request, an acknowledge, a data phase only after OK. The read word and its parity
verdict stay in `RDATA` and `POK`. -/
def swdTransaction (p : Params) (apndp rnw : Bool) (a : BitVec 2) (wdata : Word) (s : State) : AckClass × State :=
  let s := receiveAck (sendRequest p apndp rnw a s)
  let c := decodeAck p s.ack
  if c = .ok then (c, dataPhase rnw wdata s) else (c, s)

/-! ### The rows of the phase table (43_dp_sequencer.md R141) -/

/-- Row S_REQ: `tries` <- `tries` + 1; the request is out; next S_ACK. -/
def leaveReq (s : State) : State := { s with tries := s.tries + 1, phase := .ack }

/-- Row S_ACK: what follows each class of acknowledge. -/
def leaveAck (p : Params) (s : State) : State :=
  match decodeAck p s.ack with
  | .ok => { s with phase := if reqRnw s.req then .rdata else .wdata }
  | .wait => { s with phase := if s.tries < p.retryBound then .req else .done }
  | .fault => { s with fault := true, phase := .done }
  | .invalid => { s with phase := .done }

/-- Rows S_WDATA and S_RDATA: next S_DONE. -/
def leaveData (s : State) : State := { s with phase := .done }

/-- A request goes out (R126 step 1); in S_REQ it is row S_REQ. -/
def requestStep (apndp rnw : Bool) (a : BitVec 2) (s : State) : State :=
  let t := sendRequest Config.params apndp rnw a s
  if s.phase = .req then leaveReq t else t

/-- The target answers `v` in the three acknowledge cycles (R126 step 2); in S_ACK it is row S_ACK. -/
def ackStep (v : BitVec 3) (s : State) : State :=
  let t := receiveAck (presentSwdio (bitsOf v 3) s)
  if s.phase = .ack then leaveAck Config.params t else t

/-- A write data phase goes out (R124); in S_WDATA it is row S_WDATA. -/
def dataWStep (data : Word) (s : State) : State :=
  let t := writeDataPhase data s
  if s.phase = .wdata then leaveData t else t

/-- The target sends a read data phase (R125); in S_RDATA it is row S_RDATA. -/
def dataRStep (data : Word) (par : Bool) (s : State) : State :=
  let t := readDataPhase (presentSwdio (bitsOf data 32 ++ [par]) s)
  if s.phase = .rdata then leaveData t else t

/-! ### Meanings: the sixteen requests (30_encoding.md R62) -/

/-- 0x81. -/
def execReqDpWA0 (s : State) : Host.Outcome State Fault Refusal := .next (requestStep false false 0 s)
/-- 0xA9. -/
def execReqDpWA4 (s : State) : Host.Outcome State Fault Refusal := .next (requestStep false false 1 s)
/-- 0xB1. -/
def execReqDpWA8 (s : State) : Host.Outcome State Fault Refusal := .next (requestStep false false 2 s)
/-- 0x99. -/
def execReqDpWAC (s : State) : Host.Outcome State Fault Refusal := .next (requestStep false false 3 s)
/-- 0xA5. -/
def execReqDpRA0 (s : State) : Host.Outcome State Fault Refusal := .next (requestStep false true 0 s)
/-- 0x8D. -/
def execReqDpRA4 (s : State) : Host.Outcome State Fault Refusal := .next (requestStep false true 1 s)
/-- 0x95. -/
def execReqDpRA8 (s : State) : Host.Outcome State Fault Refusal := .next (requestStep false true 2 s)
/-- 0xBD. -/
def execReqDpRAC (s : State) : Host.Outcome State Fault Refusal := .next (requestStep false true 3 s)
/-- 0xA3. -/
def execReqApWA0 (s : State) : Host.Outcome State Fault Refusal := .next (requestStep true false 0 s)
/-- 0x8B. -/
def execReqApWA4 (s : State) : Host.Outcome State Fault Refusal := .next (requestStep true false 1 s)
/-- 0x93. -/
def execReqApWA8 (s : State) : Host.Outcome State Fault Refusal := .next (requestStep true false 2 s)
/-- 0xBB. -/
def execReqApWAC (s : State) : Host.Outcome State Fault Refusal := .next (requestStep true false 3 s)
/-- 0x87. -/
def execReqApRA0 (s : State) : Host.Outcome State Fault Refusal := .next (requestStep true true 0 s)
/-- 0xAF. -/
def execReqApRA4 (s : State) : Host.Outcome State Fault Refusal := .next (requestStep true true 1 s)
/-- 0xB7. -/
def execReqApRA8 (s : State) : Host.Outcome State Fault Refusal := .next (requestStep true true 2 s)
/-- 0x9F. -/
def execReqApRAC (s : State) : Host.Outcome State Fault Refusal := .next (requestStep true true 3 s)

/-! ### Meanings: the eight acknowledge values (R63, R73) -/

/-- OK. -/
def execAckOk (s : State) : Host.Outcome State Fault Refusal := .next (ackStep Config.params.ackOk s)
/-- WAIT. -/
def execAckWait (s : State) : Host.Outcome State Fault Refusal := .next (ackStep Config.params.ackWait s)
/-- FAULT. -/
def execAckFault (s : State) : Host.Outcome State Fault Refusal := .next (ackStep Config.params.ackFault s)
/-- None of the three names: 0. -/
def execAckInvalid0 (s : State) : Host.Outcome State Fault Refusal := .next (ackStep 0 s)
/-- None of the three names: 3. -/
def execAckInvalid3 (s : State) : Host.Outcome State Fault Refusal := .next (ackStep 3 s)
/-- None of the three names: 5. -/
def execAckInvalid5 (s : State) : Host.Outcome State Fault Refusal := .next (ackStep 5 s)
/-- None of the three names: 6. -/
def execAckInvalid6 (s : State) : Host.Outcome State Fault Refusal := .next (ackStep 6 s)
/-- None of the three names: 7. -/
def execAckInvalid7 (s : State) : Host.Outcome State Fault Refusal := .next (ackStep 7 s)

/-! ### Meanings: the two data phases -/

/-- R124. -/
def execDataW (data : Word) (s : State) : Host.Outcome State Fault Refusal := .next (dataWStep data s)

/-- R125. -/
def execDataR (data : Word) (par : Bool) (s : State) : Host.Outcome State Fault Refusal := .next (dataRStep data par s)

end Sys2Proof.Machine
end

