-- ==== Sys2Proof/Machine/Operands.lean ====
section
/-! DEFINITION. The operand forms: the address operand (43_dp_sequencer.md R140, 30_encoding.md R71) and the SELECT value
(R144, R145; PRESUMED layout, GK4, log 15). Counts and 32-bit operands need no assembly (R71); bit buffers are in
Machine/Bits.lean (20_memory.md R43). -/

namespace Sys2Proof.Machine

/-- `addr[1:0]` is zero (20_memory.md R46). -/
def addrAligned {w : Nat} (addr : BitVec w) : Bool := addr.extractLsb' 0 2 == 0

/-- APnDP = `addr[8]`, an operand bit of `low_access` only (R140). -/
def addrApndp (addr : BitVec 9) : Bool := addr.getLsbD 8

/-- A[3:2] = `addr[3:2]` (R140). -/
def addrSlot {w : Nat} (addr : BitVec w) : BitVec 2 := addr.extractLsb' 2 2

/-- The bank, `addr[7:4]` (R140). -/
def addrBank {w : Nat} (addr : BitVec w) : BitVec 4 := addr.extractLsb' 4 4

/-- `{apndp, addr}`: the 9-bit address of a DP or AP register (R146, R152). -/
def fullAddr (apndp : Bool) (addr : Byte) : BitVec 9 := (BitVec.ofBool apndp ++ addr : BitVec (1 + 8)).cast rfl

/-- The byte address of the DP register in slot `a`, bank 0. -/
def slotAddr (a : BitVec 2) : BitVec 9 := a.zeroExtend 9 <<< 2

/-- The SELECT value `{apsel, 16'0, apbank, dpbank}` (R145). -/
def selectValue (apsel : BitVec 8) (apbank dpbank : BitVec 4) : Word :=
  (apsel ++ (0 : BitVec 16) ++ apbank ++ dpbank : BitVec (8 + 16 + 4 + 4)).cast rfl

/-- SELECT[31:24] (R144). -/
def selectApsel (v : Word) : BitVec 8 := v.extractLsb' 24 8

/-- SELECT[7:4] (R144). -/
def selectApbank (v : Word) : BitVec 4 := v.extractLsb' 4 4

/-- SELECT[3:0] (R144). -/
def selectDpbank (v : Word) : BitVec 4 := v.extractLsb' 0 4

end Sys2Proof.Machine
end

