-- ==== Sys2Proof/Machine/Sequencer.lean ====
section
/-! DEFINITION. The DP register-access sequencer (43_dp_sequencer.md R140 to R156). -/

namespace Sys2Proof.Machine

/-- One pass of the loop of `low_access` (R141): S_REQ, `tries` + 1, one transaction. -/
def attempt (p : Params) (apndp rnw : Bool) (a : BitVec 2) (value : Word) (s : State) : AckClass × State :=
  swdTransaction p apndp rnw a value { s with phase := .req, tries := s.tries + 1 }

/-- The loop of `low_access` (R141, R142): repeat while the class is WAIT; `more` passes are left after this one. -/
def attempts (p : Params) (apndp rnw : Bool) (a : BitVec 2) (value : Word) : Nat → State → AckClass × State
  | 0, s => attempt p apndp rnw a value s
  | more + 1, s =>
    let r := attempt p apndp rnw a value s
    if r.1 = .wait then attempts p apndp rnw a value more r.2 else r

/-- An ABORT write acknowledged OK clears the latch (R143). -/
def clearFaultOnAbort (p : Params) (apndp rnw : Bool) (a : BitVec 2) (s : State) : State :=
  if apndp = false ∧ rnw = false ∧ a = p.aAbort then { s with fault := false } else s

/-- A SELECT write acknowledged OK is tracked (R144). -/
def trackSelect (p : Params) (apndp rnw : Bool) (a : BitVec 2) (value : Word) (s : State) : State :=
  if apndp = false ∧ rnw = false ∧ a = p.aSelect then
    { s with
      selApsel := selectApsel value, selApbank := selectApbank value, selDpbank := selectDpbank value
      selValid := true }
  else s

/-- A SELECT write that ends any other way is no longer tracked (R144). -/
def untrackSelect (p : Params) (apndp rnw : Bool) (a : BitVec 2) (s : State) : State :=
  if apndp = false ∧ rnw = false ∧ a = p.aSelect then { s with selValid := false } else s

/-- The end of an access, after S_DONE (R141): bookkeeping, S_IDLE, and the outcome by class and parity (R178). -/
def finishAccess (p : Params) (apndp rnw : Bool) (a : BitVec 2) (value : Word) (c : AckClass) (s : State) :
    CmdOutcome × State :=
  match c with
  | .ok =>
    let s := trackSelect p apndp rnw a value (clearFaultOnAbort p apndp rnw a s)
    let s := { s with phase := .idle }
    (if rnw then (if s.pok then .ok (.word s.rdata) else .parityError s.rdata) else .ok .nothing, s)
  | .wait => (.waitTimeout, { untrackSelect p apndp rnw a s with phase := .idle })
  | .fault => (.protocolFault, { untrackSelect p apndp rnw a s with phase := .idle, fault := true })
  | .invalid => (.invalidAck s.ack, { untrackSelect p apndp rnw a s with phase := .idle })

/-- `low_access` (R141). `addr[7:4]` is ignored, `fault` is not looked at, `value` is ignored on a read. -/
def lowAccess (p : Params) (rnw : Bool) (addr : BitVec 9) (value : Word) (s : State) : CmdOutcome × State :=
  if addrAligned addr then
    let r := attempts p (addrApndp addr) rnw (addrSlot addr) value p.open5.retryPred { s with tries := 0 }
    finishAccess p (addrApndp addr) rnw (addrSlot addr) value r.1 { r.2 with phase := .done }
  else (.refused .badAddress, s)

/-- The SELECT write of `ensure_select` (R145). -/
def writeSelect (p : Params) (v : Word) (s : State) : CmdOutcome × State := lowAccess p false (slotAddr p.aSelect) v s

/-- `ensure_select(DP, -, bank)` (R145). -/
def ensureSelectDp (p : Params) (bank : BitVec 4) (s : State) : CmdOutcome × State :=
  if s.selValid ∧ s.selDpbank = bank then (.ok .nothing, s)
  else writeSelect p (if s.selValid then selectValue s.selApsel s.selApbank bank else selectValue 0 0 bank) s

/-- `ensure_select(AP, apsel, bank)` (R145). -/
def ensureSelectAp (p : Params) (apsel : BitVec 8) (bank : BitVec 4) (s : State) : CmdOutcome × State :=
  if s.selValid ∧ s.selApsel = apsel ∧ s.selApbank = bank then (.ok .nothing, s)
  else writeSelect p (selectValue apsel bank (if s.selValid then s.selDpbank else 0)) s

/-- `dp_read` (R146): one bank step, one read, its word as it came. -/
def dpRead (p : Params) (addr : Byte) (s : State) : CmdOutcome × State :=
  if addrAligned addr then
    andThenOk (ensureSelectDp p (addrBank addr) s) (lowAccess p true (fullAddr false addr) 0)
  else (.refused .badAddress, s)

/-- `dp_write` (R147): a write to SELECT is its own bank step. -/
def dpWrite (p : Params) (addr : Byte) (value : Word) (s : State) : CmdOutcome × State :=
  if addrAligned addr then
    if addrSlot addr = p.aSelect then lowAccess p false (fullAddr false addr) value s
    else andThenOk (ensureSelectDp p (addrBank addr) s) (lowAccess p false (fullAddr false addr) value)
  else (.refused .badAddress, s)

/-- `dp_abort` (R148): no bank step in front. -/
def dpAbort (p : Params) (value : Word) (s : State) : CmdOutcome × State := lowAccess p false (slotAddr p.aAbort) value s

/-- `ap_read` (R152). -/
def apRead (p : Params) (apsel addr : Byte) (s : State) : CmdOutcome × State :=
  if addrAligned addr then
    andThenOk (ensureSelectAp p apsel (addrBank addr) s) (lowAccess p true (fullAddr true addr) 0)
  else (.refused .badAddress, s)

/-- `ap_write` (R153). -/
def apWrite (p : Params) (apsel addr : Byte) (value : Word) (s : State) : CmdOutcome × State :=
  if addrAligned addr then
    andThenOk (ensureSelectAp p apsel (addrBank addr) s) (lowAccess p false (fullAddr true addr) value)
  else (.refused .badAddress, s)

/-- The address of TARGETID: slot A[3:2] = `A_CTRLSTAT`, bank 2 (R154; PRESUMED, GK16, log 15). -/
def targetidAddr : Byte := 0x24

/-- The second half of `dp_attach`, when `DP_V2` (R154). -/
def loadTargetid (p : Params) (s : State) : CmdOutcome × State :=
  match dpRead p targetidAddr s with
  | (.ok (.word w), s) => (.ok .nothing, { s with targetid := some w })
  | r => r

/-- `dp_attach` (R154). -/
def dpAttach (p : Params) (s : State) : CmdOutcome × State :=
  match lowAccess p true (slotAddr p.aIdcode) 0
      { s with fault := false, selValid := false, idcode := none, targetid := none } with
  | (.ok (.word v), s) =>
    let s := { s with idcode := some v }
    if p.open5.dpV2 then loadTargetid p s else (.ok .nothing, s)
  | r => r

/-- `fault_read` (R155). -/
def faultRead (s : State) : CmdOutcome × State := (.ok (.bit s.fault), s)

/-- A read of a register that may hold no value (R155, R175). -/
def readRegister (r : Option Word) (s : State) : CmdOutcome × State :=
  match r with
  | none => (.refused .noValue, s)
  | some v => (.ok (.word v), s)

/-- The caller's flush read, `dp_read` of RDBUFF (30_encoding.md R74, R149). -/
def flushRead (p : Params) (s : State) : CmdOutcome × State := dpRead p ((slotAddr p.aRdbuff).setWidth 8) s

/-! ### Meanings -/

/-- R141. -/
def execLowAccess (rnw : Bool) (addr : BitVec 9) (value : Word) (s : State) : Host.Outcome State Fault Refusal :=
  runCommand (lowAccess Config.params rnw addr value) s

/-- R146. -/
def execDpRead (addr : Byte) (s : State) : Host.Outcome State Fault Refusal :=
  runCommand (dpRead Config.params addr) s

/-- R147. -/
def execDpWrite (addr : Byte) (value : Word) (s : State) : Host.Outcome State Fault Refusal :=
  runCommand (dpWrite Config.params addr value) s

/-- R148. -/
def execDpAbort (value : Word) (s : State) : Host.Outcome State Fault Refusal :=
  runCommand (dpAbort Config.params value) s

/-- R152. -/
def execApRead (apsel addr : Byte) (s : State) : Host.Outcome State Fault Refusal :=
  runCommand (apRead Config.params apsel addr) s

/-- R153. -/
def execApWrite (apsel addr : Byte) (value : Word) (s : State) : Host.Outcome State Fault Refusal :=
  runCommand (apWrite Config.params apsel addr value) s

/-- R154. -/
def execDpAttach (s : State) : Host.Outcome State Fault Refusal := runCommand (dpAttach Config.params) s

/-- R155. -/
def execFaultRead (s : State) : Host.Outcome State Fault Refusal := runCommand faultRead s

/-- R155, R21. -/
def execIdcodeRead (s : State) : Host.Outcome State Fault Refusal := runCommand (fun s => readRegister s.idcode s) s

/-- R155, R22. -/
def execTargetidRead (s : State) : Host.Outcome State Fault Refusal := runCommand (fun s => readRegister s.targetid s) s

end Sys2Proof.Machine
end

