-- ==== Sys2Proof/Machine/Dispatch.lean ====
section
/-! DEFINITION. One arm per instruction. -/

namespace Sys2Proof.Machine

def exec (i : Instr) (s : State) : Host.Outcome State Fault Refusal :=
  match i with
  | .jtagReset => Sys2Proof.Machine.execJtagReset s
  | .jtagNext tms tdi => Sys2Proof.Machine.execJtagNext tms tdi s
  | .shiftTmsSequence bits count => Sys2Proof.Machine.execShiftTmsSequence bits count s
  | .shiftData tdi count finalTms => Sys2Proof.Machine.execShiftData tdi count finalTms s
  | .shiftDataDiscardOutput tdi count finalTms => Sys2Proof.Machine.execShiftDataDiscardOutput tdi count finalTms s
  | .seqOut bits count => Sys2Proof.Machine.execSeqOut bits count s
  | .seqOutWithParity value count => Sys2Proof.Machine.execSeqOutWithParity value count s
  | .seqIn count => Sys2Proof.Machine.execSeqIn count s
  | .seqInWithParity count => Sys2Proof.Machine.execSeqInWithParity count s
  | .setDelay n => Sys2Proof.Machine.execSetDelay n s
  | .lowAccess rnw addr value => Sys2Proof.Machine.execLowAccess rnw addr value s
  | .dpRead addr => Sys2Proof.Machine.execDpRead addr s
  | .dpWrite addr value => Sys2Proof.Machine.execDpWrite addr value s
  | .dpAbort value => Sys2Proof.Machine.execDpAbort value s
  | .apRead apsel addr => Sys2Proof.Machine.execApRead apsel addr s
  | .apWrite apsel addr value => Sys2Proof.Machine.execApWrite apsel addr value s
  | .dpAttach => Sys2Proof.Machine.execDpAttach s
  | .faultRead => Sys2Proof.Machine.execFaultRead s
  | .idcodeRead => Sys2Proof.Machine.execIdcodeRead s
  | .targetidRead => Sys2Proof.Machine.execTargetidRead s
  | .reqDpWA0 => Sys2Proof.Machine.execReqDpWA0 s
  | .reqDpWA4 => Sys2Proof.Machine.execReqDpWA4 s
  | .reqDpWA8 => Sys2Proof.Machine.execReqDpWA8 s
  | .reqDpWAC => Sys2Proof.Machine.execReqDpWAC s
  | .reqDpRA0 => Sys2Proof.Machine.execReqDpRA0 s
  | .reqDpRA4 => Sys2Proof.Machine.execReqDpRA4 s
  | .reqDpRA8 => Sys2Proof.Machine.execReqDpRA8 s
  | .reqDpRAC => Sys2Proof.Machine.execReqDpRAC s
  | .reqApWA0 => Sys2Proof.Machine.execReqApWA0 s
  | .reqApWA4 => Sys2Proof.Machine.execReqApWA4 s
  | .reqApWA8 => Sys2Proof.Machine.execReqApWA8 s
  | .reqApWAC => Sys2Proof.Machine.execReqApWAC s
  | .reqApRA0 => Sys2Proof.Machine.execReqApRA0 s
  | .reqApRA4 => Sys2Proof.Machine.execReqApRA4 s
  | .reqApRA8 => Sys2Proof.Machine.execReqApRA8 s
  | .reqApRAC => Sys2Proof.Machine.execReqApRAC s
  | .ackOk => Sys2Proof.Machine.execAckOk s
  | .ackWait => Sys2Proof.Machine.execAckWait s
  | .ackFault => Sys2Proof.Machine.execAckFault s
  | .ackInvalid0 => Sys2Proof.Machine.execAckInvalid0 s
  | .ackInvalid3 => Sys2Proof.Machine.execAckInvalid3 s
  | .ackInvalid5 => Sys2Proof.Machine.execAckInvalid5 s
  | .ackInvalid6 => Sys2Proof.Machine.execAckInvalid6 s
  | .ackInvalid7 => Sys2Proof.Machine.execAckInvalid7 s
  | .dataW data => Sys2Proof.Machine.execDataW data s
  | .dataR data par => Sys2Proof.Machine.execDataR data par s
  | .turn => Sys2Proof.Machine.execTurn s
  | .tmsseq bits count => Sys2Proof.Machine.execTmsseq bits count s
  | .shift tdi count finalTms => Sys2Proof.Machine.execShift tdi count finalTms s

end Sys2Proof.Machine
end

