-- ==== Sys2Proof/WellFormed.lean ====
section
/-! DEFINITION. Which instruction terms can be presented at all: those the byte layout of Decode.lean can carry
(log 1) and the wire formats of 30_encoding.md R67 admit. A command operand that is presentable but out of its range
(R73 (c), (d)) is well formed: the block refuses it by an outcome. So is a data shift whose buffer holds fewer bits than
it clocks (log 31). -/

namespace Sys2Proof

/-- A count operand travels in four bytes (log 1). -/
def countFits (count : Nat) : Bool := decide (count < 2 ^ 32)

/-- The length of a buffer operand travels in four bytes (log 1). -/
def bufferFits (tdi : List Byte) : Bool := decide (tdi.length < 2 ^ 32)

/-- Well-formedness. A TMSSEQ string is bounded by its operand's width; for a SHIFT string presented alone `JTAG_SHIFT_MAX` is no
bound (DESIGN CHOICE, log 30). -/
def Instr.wellFormed : Instr → Bool
  | .shiftTmsSequence _ count | .seqOut _ count | .seqOutWithParity _ count
  | .seqIn count | .seqInWithParity count => countFits count
  | .shiftData tdi count _ | .shiftDataDiscardOutput tdi count _ => countFits count && bufferFits tdi
  | .tmsseq _ count => decide (count ≤ Config.tmsSeqMax)
  | .shift tdi count _ =>
    countFits count && bufferFits tdi && decide (1 ≤ count) && decide (count ≤ 8 * tdi.length)
  | .jtagReset | .jtagNext _ _ | .setDelay _ | .lowAccess _ _ _ | .dpRead _ | .dpWrite _ _ | .dpAbort _
  | .apRead _ _ | .apWrite _ _ _ | .dpAttach | .faultRead | .idcodeRead | .targetidRead
  | .reqDpWA0 | .reqDpWA4 | .reqDpWA8 | .reqDpWAC | .reqDpRA0 | .reqDpRA4 | .reqDpRA8 | .reqDpRAC
  | .reqApWA0 | .reqApWA4 | .reqApWA8 | .reqApWAC | .reqApRA0 | .reqApRA4 | .reqApRA8 | .reqApRAC
  | .ackOk | .ackWait | .ackFault | .ackInvalid0 | .ackInvalid3 | .ackInvalid5 | .ackInvalid6 | .ackInvalid7
  | .dataW _ | .dataR _ _ | .turn => true

end Sys2Proof
end

