-- ==== Sys2Proof/Decode.lean ====
section
/-! DEFINITION. Decoding a packet's bytes, total and rejecting by name, and after it the encoder. The command codes are
30_encoding.md R70; the byte layout of the operands is the model's own (DESIGN CHOICE, log 1): the code, then each
operand in the order of R70's table, a bit in one byte, an 8-bit operand in one, the 9-bit address in two, a word or a
count in four, lowest byte first; a buffer is its length in bytes, in four bytes, and then its bytes. -/

namespace Sys2Proof
open Machine

/-- Why a packet's bytes are no instruction. -/
inductive DecodeError where
  /-- The command code is not in R70's table. -/
  | badCommand
  /-- The packet ends inside an operand. -/
  | truncated
  /-- A bit outside the operand's width is set. -/
  | badOperand
  /-- Not one of the sixteen requests of R62. -/
  | notARequest
  /-- More than three bits (R63). -/
  | notAnAck
  /-- The block sends no data phase with this parity bit (R64). -/
  | badParity
  /-- A wire string of a length its format does not have: a TMSSEQ above `TMS_SEQ_MAX`, a SHIFT of no cycle or with fewer
  bits than cycles (R67). -/
  | badLength
  deriving DecidableEq, Repr

/-- An instruction and the bytes after it, or the reason there is none. -/
abbrev Decoded := Except DecodeError (Instr × List Byte)

/-- One byte, its 8 bits an operand. -/
def takeByte : List Byte → Except DecodeError (Byte × List Byte)
  | [] => .error .truncated
  | b :: bs => .ok (b, bs)

/-- One byte, its bit 0 a 1-bit operand. -/
def takeBit : List Byte → Except DecodeError (Bool × List Byte)
  | [] => .error .truncated
  | b :: bs => if b = 0 then .ok (false, bs) else if b = 1 then .ok (true, bs) else .error .badOperand

/-- Two bytes, their low 9 bits an address operand. -/
def takeAddr : List Byte → Except DecodeError (BitVec 9 × List Byte)
  | b0 :: b1 :: bs =>
    if b1 = 0 then .ok (b0.zeroExtend 9, bs)
    else if b1 = 1 then .ok (b0.zeroExtend 9 ||| 0x100, bs)
    else .error .badOperand
  | _ => .error .truncated

/-- Four bytes, a word. -/
def takeWord : List Byte → Except DecodeError (Word × List Byte)
  | b0 :: b1 :: b2 :: b3 :: bs => .ok (wordOfBytes b0 b1 b2 b3, bs)
  | _ => .error .truncated

/-- Four bytes, a count. -/
def takeCount (bs : List Byte) : Except DecodeError (Nat × List Byte) :=
  match takeWord bs with
  | .ok (v, rest) => .ok (v.toNat, rest)
  | .error e => .error e

/-- A length, and a buffer of that many bytes. -/
def takeBuffer (bs : List Byte) : Except DecodeError (List Byte × List Byte) := do
  let (len, bs) ← takeCount bs
  if bs.length < len then .error .truncated else .ok (bs.take len, bs.drop len)

/-- Decoding a command packet (R70). -/
def decodeCmd : List Byte → Decoded
  | [] => .error .truncated
  | op :: bs =>
    match op with
    | 0x00#8 => .ok (.jtagReset, bs)
    | 0x01#8 => do
      let (tms, bs) ← takeBit bs
      let (tdi, bs) ← takeBit bs
      .ok (.jtagNext tms tdi, bs)
    | 0x02#8 => do
      let (bits, bs) ← takeWord bs
      let (count, bs) ← takeCount bs
      .ok (.shiftTmsSequence bits count, bs)
    | 0x03#8 => do
      let (tdi, bs) ← takeBuffer bs
      let (count, bs) ← takeCount bs
      let (finalTms, bs) ← takeBit bs
      .ok (.shiftData tdi count finalTms, bs)
    | 0x04#8 => do
      let (tdi, bs) ← takeBuffer bs
      let (count, bs) ← takeCount bs
      let (finalTms, bs) ← takeBit bs
      .ok (.shiftDataDiscardOutput tdi count finalTms, bs)
    | 0x08#8 => do
      let (bits, bs) ← takeWord bs
      let (count, bs) ← takeCount bs
      .ok (.seqOut bits count, bs)
    | 0x09#8 => do
      let (value, bs) ← takeWord bs
      let (count, bs) ← takeCount bs
      .ok (.seqOutWithParity value count, bs)
    | 0x0A#8 => do
      let (count, bs) ← takeCount bs
      .ok (.seqIn count, bs)
    | 0x0B#8 => do
      let (count, bs) ← takeCount bs
      .ok (.seqInWithParity count, bs)
    | 0x0C#8 => do
      let (n, bs) ← takeWord bs
      .ok (.setDelay n, bs)
    | 0x10#8 => do
      let (rnw, bs) ← takeBit bs
      let (addr, bs) ← takeAddr bs
      let (value, bs) ← takeWord bs
      .ok (.lowAccess rnw addr value, bs)
    | 0x11#8 => do
      let (addr, bs) ← takeByte bs
      .ok (.dpRead addr, bs)
    | 0x12#8 => do
      let (addr, bs) ← takeByte bs
      let (value, bs) ← takeWord bs
      .ok (.dpWrite addr value, bs)
    | 0x13#8 => do
      let (value, bs) ← takeWord bs
      .ok (.dpAbort value, bs)
    | 0x14#8 => do
      let (apsel, bs) ← takeByte bs
      let (addr, bs) ← takeByte bs
      .ok (.apRead apsel addr, bs)
    | 0x15#8 => do
      let (apsel, bs) ← takeByte bs
      let (addr, bs) ← takeByte bs
      let (value, bs) ← takeWord bs
      .ok (.apWrite apsel addr value, bs)
    | 0x16#8 => .ok (.dpAttach, bs)
    | 0x17#8 => .ok (.faultRead, bs)
    | 0x18#8 => .ok (.idcodeRead, bs)
    | 0x19#8 => .ok (.targetidRead, bs)
    | _ => .error .badCommand

/-- Decoding a request: the sixteen bytes of R62, first bit on the wire in bit 0. -/
def decodeReq : List Byte → Decoded
  | [] => .error .truncated
  | b :: bs =>
    match b with
    | 0x81#8 => .ok (.reqDpWA0, bs)
    | 0xA9#8 => .ok (.reqDpWA4, bs)
    | 0xB1#8 => .ok (.reqDpWA8, bs)
    | 0x99#8 => .ok (.reqDpWAC, bs)
    | 0xA5#8 => .ok (.reqDpRA0, bs)
    | 0x8D#8 => .ok (.reqDpRA4, bs)
    | 0x95#8 => .ok (.reqDpRA8, bs)
    | 0xBD#8 => .ok (.reqDpRAC, bs)
    | 0xA3#8 => .ok (.reqApWA0, bs)
    | 0x8B#8 => .ok (.reqApWA4, bs)
    | 0x93#8 => .ok (.reqApWA8, bs)
    | 0xBB#8 => .ok (.reqApWAC, bs)
    | 0x87#8 => .ok (.reqApRA0, bs)
    | 0xAF#8 => .ok (.reqApRA4, bs)
    | 0xB7#8 => .ok (.reqApRA8, bs)
    | 0x9F#8 => .ok (.reqApRAC, bs)
    | _ => .error .notARequest

/-- Decoding an acknowledge: three bits in a byte, the first received in bit 0 (R63). -/
def decodeAckByte : List Byte → Decoded
  | [] => .error .truncated
  | b :: bs =>
    match b with
    | 0#8 => .ok (.ackInvalid0, bs)
    | 1#8 => .ok (.ackOk, bs)
    | 2#8 => .ok (.ackWait, bs)
    | 3#8 => .ok (.ackInvalid3, bs)
    | 4#8 => .ok (.ackFault, bs)
    | 5#8 => .ok (.ackInvalid5, bs)
    | 6#8 => .ok (.ackInvalid6, bs)
    | 7#8 => .ok (.ackInvalid7, bs)
    | _ => .error .notAnAck

/-- Decoding a write data phase: 32 bits, then the parity bit, which is the data's (R64). -/
def decodeDataW (bs : List Byte) : Decoded := do
  let (data, bs) ← takeWord bs
  let (par, bs) ← takeBit bs
  if par = parity data then .ok (.dataW data, bs) else .error .badParity

/-- Decoding a read data phase: 32 bits, then the parity bit the target sent (R64). -/
def decodeDataR (bs : List Byte) : Decoded := do
  let (data, bs) ← takeWord bs
  let (par, bs) ← takeBit bs
  .ok (.dataR data par, bs)

/-- Decoding a TMS pattern (R67). -/
def decodeTmsseq (bs : List Byte) : Decoded := do
  let (bits, bs) ← takeWord bs
  let (count, bs) ← takeCount bs
  if count ≤ Config.tmsSeqMax then .ok (.tmsseq bits count, bs) else .error .badLength

/-- Decoding a data shift (R67). `JTAG_SHIFT_MAX` bounds the commands' operand and not this wire string presented alone
(DESIGN CHOICE, log 30). -/
def decodeShift (bs : List Byte) : Decoded := do
  let (tdi, bs) ← takeBuffer bs
  let (count, bs) ← takeCount bs
  let (finalTms, bs) ← takeBit bs
  if 1 ≤ count ∧ count ≤ 8 * tdi.length then .ok (.shift tdi count finalTms, bs) else .error .badLength

/-- The decoder: which format the bits stand in decides how they are read (R60). -/
def decode : Format → List Byte → Decoded
  | .cmd, bs => decodeCmd bs
  | .req, bs => decodeReq bs
  | .ack, bs => decodeAckByte bs
  | .dataW, bs => decodeDataW bs
  | .dataR, bs => decodeDataR bs
  | .turn, bs => .ok (.turn, bs)
  | .tmsseq, bs => decodeTmsseq bs
  | .shift, bs => decodeShift bs

/-! ### The encoder -/

/-- A 1-bit operand. -/
def encodeBit (b : Bool) : List Byte := [bitAt b 0]

/-- A 9-bit address operand. -/
def encodeAddr (a : BitVec 9) : List Byte := [a.setWidth 8, bitAt (a.getLsbD 8) 0]

/-- A count operand. -/
def encodeCount (n : Nat) : List Byte := bytesOfWord (BitVec.ofNat 32 n)

/-- A buffer operand. -/
def encodeBuffer (tdi : List Byte) : List Byte := encodeCount tdi.length ++ tdi

/-- The bytes of an instruction in its format (R61 to R64, R67, R70; operand layout log 1). -/
def encode : Instr → List Byte
  | .jtagReset => [0x00]
  | .jtagNext tms tdi => [0x01] ++ encodeBit tms ++ encodeBit tdi
  | .shiftTmsSequence bits count => [0x02] ++ bytesOfWord bits ++ encodeCount count
  | .shiftData tdi count finalTms => [0x03] ++ encodeBuffer tdi ++ encodeCount count ++ encodeBit finalTms
  | .shiftDataDiscardOutput tdi count finalTms =>
    [0x04] ++ encodeBuffer tdi ++ encodeCount count ++ encodeBit finalTms
  | .seqOut bits count => [0x08] ++ bytesOfWord bits ++ encodeCount count
  | .seqOutWithParity value count => [0x09] ++ bytesOfWord value ++ encodeCount count
  | .seqIn count => [0x0A] ++ encodeCount count
  | .seqInWithParity count => [0x0B] ++ encodeCount count
  | .setDelay n => [0x0C] ++ bytesOfWord n
  | .lowAccess rnw addr value => [0x10] ++ encodeBit rnw ++ encodeAddr addr ++ bytesOfWord value
  | .dpRead addr => [0x11, addr]
  | .dpWrite addr value => [0x12, addr] ++ bytesOfWord value
  | .dpAbort value => [0x13] ++ bytesOfWord value
  | .apRead apsel addr => [0x14, apsel, addr]
  | .apWrite apsel addr value => [0x15, apsel, addr] ++ bytesOfWord value
  | .dpAttach => [0x16]
  | .faultRead => [0x17]
  | .idcodeRead => [0x18]
  | .targetidRead => [0x19]
  | .reqDpWA0 => [0x81]
  | .reqDpWA4 => [0xA9]
  | .reqDpWA8 => [0xB1]
  | .reqDpWAC => [0x99]
  | .reqDpRA0 => [0xA5]
  | .reqDpRA4 => [0x8D]
  | .reqDpRA8 => [0x95]
  | .reqDpRAC => [0xBD]
  | .reqApWA0 => [0xA3]
  | .reqApWA4 => [0x8B]
  | .reqApWA8 => [0x93]
  | .reqApWAC => [0xBB]
  | .reqApRA0 => [0x87]
  | .reqApRA4 => [0xAF]
  | .reqApRA8 => [0xB7]
  | .reqApRAC => [0x9F]
  | .ackOk => [1]
  | .ackWait => [2]
  | .ackFault => [4]
  | .ackInvalid0 => [0]
  | .ackInvalid3 => [3]
  | .ackInvalid5 => [5]
  | .ackInvalid6 => [6]
  | .ackInvalid7 => [7]
  | .dataW data => bytesOfWord data ++ encodeBit (parity data)
  | .dataR data par => bytesOfWord data ++ encodeBit par
  | .turn => []
  | .tmsseq bits count => bytesOfWord bits ++ encodeCount count
  | .shift tdi count finalTms => encodeBuffer tdi ++ encodeCount count ++ encodeBit finalTms

/-! ### Table words -/

/-- The bytes of a table word of `nbits` bits, lowest first, with the operand bytes above them 0: the longest command
without a buffer's bytes has ten bytes. -/
def tableBytes (nbits w : Nat) : List Byte :=
  (List.range (max ((nbits + 7) / 8) 10)).map fun i => BitVec.ofNat 8 (w / 256 ^ i)

/-- The format a table word of `nbits` bits is read in. The table gives eight bits to a command code and to a request,
three to an acknowledge, 33 to a data phase and none to TURN. A word of one to seven bits is an acknowledge. A word of
eight bits is a command where R70 has the code, else an acknowledge where it is below 8, else a request: the acknowledge values 0
to 4 rounded up to a byte are command codes too (log 3). A word of 33 to 40 bits is a data phase: one whose parity bit is
right is read as the block's, any other as the target's. -/
def tableFormat (nbits w : Nat) : Option Format :=
  if nbits = 0 then some .turn
  else if nbits ≤ 7 then some .ack
  else if nbits = 8 then
    match decode .cmd (tableBytes nbits w) with
    | .ok _ => some .cmd
    | .error _ => if w < 8 then some .ack else some .req
  else if 33 ≤ nbits ∧ nbits ≤ 40 then
    match decode .dataW (tableBytes nbits w) with
    | .ok _ => some .dataW
    | .error _ => some .dataR
  else none

/-- The instruction the decoder reads from a table word. -/
def decodeTableWord (nbits w : Nat) : Option Instr :=
  match tableFormat nbits w with
  | none => none
  | some f =>
    match decode f (tableBytes nbits w) with
    | .ok (i, _) => some i
    | .error _ => none

end Sys2Proof
end

