-- ==== Sys2Proof/Machine/Port.lean ====
section
/-! DEFINITION. Where the next instruction comes from: the port, and, with nothing presented, the phase machine of
`low_access` (43_dp_sequencer.md R141), whose rows read the request register, the line and `WDATA` (log 5). -/

namespace Sys2Proof.Machine

/-- The request instruction of the fields of a request (30_encoding.md R62). -/
def requestInstr : Bool → Bool → BitVec 2 → Instr
  | false, false, a => if a = 0 then .reqDpWA0 else if a = 1 then .reqDpWA4 else if a = 2 then .reqDpWA8 else .reqDpWAC
  | false, true, a => if a = 0 then .reqDpRA0 else if a = 1 then .reqDpRA4 else if a = 2 then .reqDpRA8 else .reqDpRAC
  | true, false, a => if a = 0 then .reqApWA0 else if a = 1 then .reqApWA4 else if a = 2 then .reqApWA8 else .reqApWAC
  | true, true, a => if a = 0 then .reqApRA0 else if a = 1 then .reqApRA4 else if a = 2 then .reqApRA8 else .reqApRAC

/-- The acknowledge instruction of the three bits received (R63, R73). -/
def ackInstr (v : BitVec 3) : Instr :=
  if v = 0 then .ackInvalid0 else if v = 1 then .ackOk else if v = 2 then .ackWait else if v = 3 then .ackInvalid3
  else if v = 4 then .ackFault else if v = 5 then .ackInvalid5 else if v = 6 then .ackInvalid6 else .ackInvalid7

/-- A `low_access` is accepted: row S_IDLE of the phase table. The request register and, on a write, `WDATA` are loaded
for the rows that read them (log 24). -/
def acceptAccess (p : Params) (rnw : Bool) (addr : BitVec 9) (value : Word) (s : State) : State :=
  { s with
    tries := 0, phase := .req, req := makeRequest p (addrApndp addr) rnw (addrSlot addr)
    wdata := if rnw then s.wdata else value }

/-- Row S_DONE: the bookkeeping, the outcome, S_IDLE. -/
def doneStep (p : Params) (s : State) : State :=
  endCommand (finishAccess p (reqApndp s.req) (reqRnw s.req) (reqSlot s.req) s.wdata (decodeAck p s.ack) s)

/-- What a step finds to do. -/
inductive Fetched where
  /-- An instruction, and the state it runs in. -/
  | run (i : Instr) (s : State)
  /-- A step without an instruction. -/
  | settle (o : Host.Outcome State Fault Refusal)

/-- With nothing presented: in S_IDLE the block does nothing (70_reset_and_hazards.md R201, log 22); otherwise the row of
the phase table is run. -/
def fetchPhase (s : State) : Fetched :=
  match s.phase with
  | .idle => .settle (.next s)
  | .req => .run (requestInstr (reqApndp s.req) (reqRnw s.req) (reqSlot s.req)) s
  | .ack =>
    let d := s.swdioIn.draw Config.freeSwdioLevel 3
    .run (ackInstr (wordOfBits 3 d.1)) { s with swdioIn := d.2 }
  | .wdata => .run (.dataW s.wdata) s
  | .rdata =>
    let d := s.swdioIn.draw Config.freeSwdioLevel 33
    .run (.dataR (wordOfBits 32 (d.1.take 32)) (d.1.getD 32 false)) { s with swdioIn := d.2 }
  | .done => .settle (.next (doneStep Config.params s))

/-- A packet that is no instruction: an unknown command code has an outcome (30_encoding.md R70, R73 (e)), anything else
is refused (log 20). -/
def rejectPacket (e : DecodeError) (s : State) : Host.Outcome State Fault Refusal :=
  match e with
  | .badCommand => runCommand (fun s => (.refused .badCommand, s)) s
  | _ => .refused .malformedPacket

/-- The next packet is taken whole (10_state.md R17) and decoded. Bytes of it after the instruction are dropped (DESIGN
CHOICE, log 29). -/
def fetch (s : State) : Fetched :=
  match s.port with
  | [] => fetchPhase s
  | pk :: rest =>
    match decode pk.format pk.bytes with
    | .ok (i, _) => .run i { s with port := rest }
    | .error e => .settle (rejectPacket e { s with port := rest })

/-- A packet is presented in front of the others; a command is presented to an idle block (60_exceptions.md R184). -/
def present (pk : Packet) (s : State) : State :=
  { s with port := pk :: s.port, phase := if pk.format = .cmd then .idle else s.phase }

/-- The packet of a table word; a word in no format is presented as a command and refused there. -/
def tablePacket (nbits w : Nat) : Packet := ⟨(tableFormat nbits w).getD .cmd, tableBytes nbits w⟩

end Sys2Proof.Machine
end

