-- ==== Sys2Proof/Machine/Step.lean ====
section
/-! DEFINITION. One step of the block: a presented packet, or a row of the phase machine, or nothing. -/

namespace Sys2Proof.Machine

/-- One step. -/
def step (s : State) : Host.Outcome State Fault Refusal :=
  match fetch s with
  | .run i t => exec i t
  | .settle o => o

/-- The host presents the instruction of a table word (log 3, log 23). -/
def State.withFetchWord (s : State) (nbits w : Nat) : State := present (tablePacket nbits w) s

end Sys2Proof.Machine
end

