-- ==== Sys2Proof/Safety.lean ====
section
/-! DEFINITION. The terms claims are made in: what holds between commands (70_reset_and_hazards.md R205), the traces the
rules describe, cycle counts, and equality up to delay. -/

namespace Sys2Proof.Safety
open Sys2Proof.Machine

/-! ### Invariants -/

/-- What every step keeps, in every state (R205 (a), (b), (d), and of (e) and (f) what needs no history; for the states inside
an access the bounds of 10_state.md R17). -/
structure Consistent (s : State) : Prop where
  /-- R205 (a). -/
  tckLow : s.tck = false
  /-- R205 (a). -/
  swclkLow : s.swclk = false
  /-- R205 (b), 10_state.md R15. -/
  oeFollowsDir : s.swdioOe = decide (s.swdDir = .drive)
  /-- R205 (d). -/
  trstReleased : Config.params.open5.hasTrst = true → s.trst = true
  /-- R205 (e), R17. -/
  triesBounded : s.tries ≤ Config.params.retryBound
  /-- A request is sent only while a transmission is left (R141, R142). -/
  triesLeft : s.phase = .req → s.tries < Config.params.retryBound
  /-- Past S_REQ at least one request was sent (R141). -/
  triesStarted : s.phase = .ack ∨ s.phase = .wdata ∨ s.phase = .rdata ∨ s.phase = .done → 1 ≤ s.tries
  /-- R205 (f). -/
  targetidNeedsIdcode : s.targetid.isSome = true → Config.params.open5.dpV2 = true ∧ s.idcode.isSome = true

/-! ### Traces -/

/-- One TCK cycle (40_jtag_tap.md R80); `d` are the events of one delay. -/
def jtagCycle (d : List PinEvent) (tms tdi tdo : Bool) : List PinEvent :=
  [.write .tms tms, .write .tdi tdi, .write .tck true] ++ d ++ [.sample .tdo tdo, .write .tck false] ++ d

/-- TCK cycles, one for each TMS, TDI and TDO level. -/
def jtagCycles (d : List PinEvent) : List Bool → List Bool → List Bool → List PinEvent
  | tms :: m, tdi :: i, tdo :: o => jtagCycle d tms tdi tdo ++ jtagCycles d m i o
  | _, _, _ => []

/-- The TMS levels of a data shift of `n` cycles: 0, and `finalTms` in the last (R82). -/
def shiftTms (finalTms : Bool) (n : Nat) : List Bool := List.replicate (n - 1) false ++ [finalTms]

/-- The two halves of an SWCLK cycle. -/
def swclkCycle (d : List PinEvent) : List PinEvent := [.write .swclk true] ++ d ++ [.write .swclk false] ++ d

/-- An output cycle (41_swd_sequence.md R101). -/
def outCycle (d : List PinEvent) (b : Bool) : List PinEvent := .write .swdioOut b :: swclkCycle d

/-- An input cycle (R102). -/
def inCycle (d : List PinEvent) (b : Bool) : List PinEvent := .sample .swdioIn b :: swclkCycle d

/-- Output cycles. -/
def outCycles (d : List PinEvent) (bs : List Bool) : List PinEvent := bs.flatMap (outCycle d)

/-- Input cycles. -/
def inCycles (d : List PinEvent) (bs : List Bool) : List PinEvent := bs.flatMap (inCycle d)

/-- The direction that a line in a direction is not in. -/
def otherDir : Dir → Dir
  | .float => .drive
  | .drive => .float

/-- What a turnaround spends (R103). -/
def turnEvents (d : List PinEvent) (now wanted : Dir) : List PinEvent :=
  if wanted = now then []
  else match wanted with
    | .float => .mode .float :: swclkCycle d
    | .drive => swclkCycle d ++ [.mode .drive]

/-- A request on the wire, from the line direction `now` (42_swd_packet.md R126 step 1). -/
def requestEvents (d : List PinEvent) (now : Dir) (r : Byte) : List PinEvent :=
  turnEvents d now .drive ++ outCycles d (bitsOf r 8)

/-- The acknowledge that follows it (step 2). -/
def ackEvents (d : List PinEvent) (a : BitVec 3) : List PinEvent := turnEvents d .drive .float ++ inCycles d (bitsOf a 3)

/-- A write data phase after an acknowledge (R124). -/
def writeEvents (d : List PinEvent) (v : Word) : List PinEvent :=
  turnEvents d .float .drive ++ outCycles d (bitsOf v 32 ++ [parity v])

/-- A read data phase after an acknowledge (R125). -/
def readEvents (d : List PinEvent) (v : Word) (par : Bool) : List PinEvent :=
  inCycles d (bitsOf v 32 ++ [par]) ++ turnEvents d .float .drive

/-- `n` transactions answered WAIT, the first from the line direction `now`, the others from FLOAT (R128). -/
def waitEvents (d : List PinEvent) (r : Byte) : Nat → Dir → List PinEvent
  | 0, _ => []
  | n + 1, now => requestEvents d now r ++ ackEvents d 2 ++ waitEvents d r n .float

/-- The line direction after `n` transactions answered WAIT (R128). -/
def waitDir (n : Nat) (now : Dir) : Dir := if n = 0 then now else .float

/-! ### Counting -/

/-- The TCK cycles of a trace. -/
def tckCycles (t : List PinEvent) : Nat := t.count (.write .tck true)

/-- The SWCLK cycles of a trace. -/
def swclkCycles (t : List PinEvent) : Nat := t.count (.write .swclk true)

/-- 1 when the direction changes, else 0 (41_swd_sequence.md R110: `t_out`, `t_in`). -/
def turnCost (now wanted : Dir) : Nat := if wanted = now then 0 else 1

/-- The number of SWCLK cycles between two states of one run. -/
def swclkSpent (s t : State) : Nat := swclkCycles t.trace - swclkCycles s.trace

/-! ### Target answers -/

/-- `n` WAIT acknowledges, as levels on the line (42_swd_packet.md R123). -/
def waitAnswers : Nat → List Bool
  | 0 => []
  | n + 1 => bitsOf (2 : BitVec 3) 3 ++ waitAnswers n

/-- An OK acknowledge and a read data phase. -/
def readAnswers (v : Word) (par : Bool) : List Bool := bitsOf (1 : BitVec 3) 3 ++ bitsOf v 32 ++ [par]

/-! ### What an access leaves -/

/-- The request bytes of 30_encoding.md R62, in the order of its table. -/
def requestBytes : List Byte :=
  [0x81, 0xA9, 0xB1, 0x99, 0xA5, 0x8D, 0x95, 0xBD, 0xA3, 0x8B, 0x93, 0xBB, 0x87, 0xAF, 0xB7, 0x9F]

/-- The request byte of R62's table. -/
def requestByte (apndp rnw : Bool) (a : BitVec 2) : Byte :=
  requestBytes.getD (8 * apndp.toNat + 4 * rnw.toNat + a.toNat) 0

/-- `(apsel << 24) | (apbank << 4) | dpbank` (43_dp_sequencer.md R145). -/
def selectWord (apsel : BitVec 8) (apbank dpbank : BitVec 4) : Word :=
  (apsel.zeroExtend 32 <<< 24) ||| (apbank.zeroExtend 32 <<< 4) ||| dpbank.zeroExtend 32

/-- The request and acknowledge events of an access: `n` transactions answered WAIT, then one answered `ack`. -/
def accessEvents (s : State) (r : Byte) (n : Nat) (ack : BitVec 3) : List PinEvent :=
  let d := delayEvents s.delayCount
  waitEvents d r n s.swdDir ++ requestEvents d (waitDir n s.swdDir) r ++ ackEvents d ack

/-- After an access that was answered WAIT `n` times and then OK, and read `v` with parity bit `par` (R141). -/
def afterRead (apndp : Bool) (a : BitVec 2) (n : Nat) (v : Word) (par : Bool) (s : State) : State :=
  let r := requestByte apndp true a
  { s with
    req := r, ack := 1, rdata := v, pok := decide (par = parity v), tries := n + 1
    swdDir := .drive, swdioOe := true, swdioOut := true
    swdioIn := { s.swdioIn with queue := s.swdioIn.queue.drop (3 * n + 36) }
    trace := s.trace ++ accessEvents s r n 1 ++ readEvents (delayEvents s.delayCount) v par }

/-- The outcome of that read (60_exceptions.md R173). -/
def readOutcome (v : Word) (par : Bool) : CmdOutcome := if par = parity v then .ok (.word v) else .parityError v

/-- After an access that was answered WAIT `n` times and then OK, and wrote `v` (R141, R143, R144). -/
def afterWrite (apndp : Bool) (a : BitVec 2) (n : Nat) (v : Word) (s : State) : State :=
  let r := requestByte apndp false a
  let isSelect := apndp = false ∧ a = 2
  { s with
    req := r, ack := 1, wdata := v, tries := n + 1
    swdDir := .drive, swdioOe := true, swdioOut := parity v
    swdioIn := { s.swdioIn with queue := s.swdioIn.queue.drop (3 * n + 3) }
    fault := if apndp = false ∧ a = 0 then false else s.fault
    selValid := if isSelect then true else s.selValid
    selApsel := if isSelect then v.extractLsb' 24 8 else s.selApsel
    selApbank := if isSelect then v.extractLsb' 4 4 else s.selApbank
    selDpbank := if isSelect then v.extractLsb' 0 4 else s.selDpbank
    trace := s.trace ++ accessEvents s r n 1 ++ writeEvents (delayEvents s.delayCount) v }

/-- After an access that was answered WAIT `n` times and then `ack`, which ended it without a data phase
(60_exceptions.md section 2). -/
def afterNoData (apndp rnw : Bool) (a : BitVec 2) (n : Nat) (ack : BitVec 3) (s : State) : State :=
  let r := requestByte apndp rnw a
  { s with
    req := r, ack := ack, tries := n + 1
    swdDir := .float, swdioOe := false, swdioOut := true
    swdioIn := { s.swdioIn with queue := s.swdioIn.queue.drop (3 * n + 3) }
    fault := if ack = 4 then true else s.fault
    selValid := if apndp = false ∧ rnw = false ∧ a = 2 then false else s.selValid
    trace := s.trace ++ accessEvents s r n ack }

/-- The outcome by the acknowledge that ended an access without a data phase (R171, R172, R174). -/
def noDataOutcome (ack : BitVec 3) : CmdOutcome :=
  if ack = 2 then .waitTimeout else if ack = 4 then .protocolFault else .invalidAck ack

/-- The SELECT value a DP bank step writes (R145). -/
def dpSelectWord (s : State) (bank : BitVec 4) : Word :=
  if s.selValid then selectWord s.selApsel s.selApbank bank else selectWord 0 0 bank

/-- The SELECT value an AP bank step writes (R145). -/
def apSelectWord (s : State) (apsel : BitVec 8) (bank : BitVec 4) : Word :=
  selectWord apsel bank (if s.selValid then s.selDpbank else 0)

/-- The bank of a DP address is the tracked one, so that the bank step is elided (43_dp_sequencer.md R145). -/
def DpTracked (s : State) (addr : Byte) : Prop := s.selValid = true ∧ s.selDpbank = addr.extractLsb' 4 4

/-- The AP select and the bank of an AP address are the tracked ones (R145). -/
def ApTracked (s : State) (apsel addr : Byte) : Prop :=
  s.selValid = true ∧ s.selApsel = apsel ∧ s.selApbank = addr.extractLsb' 4 4

/-! ### What holds between commands -/

/-- A write transaction acknowledged OK, from its request's first bit (42_swd_packet.md R126). -/
def writeTransaction (d : List PinEvent) (r : Byte) (v : Word) : List PinEvent :=
  outCycles d (bitsOf r 8) ++ ackEvents d 1 ++ writeEvents d v

/-- A read transaction acknowledged OK whose parity bit is right. -/
def readTransaction (d : List PinEvent) (r : Byte) (v : Word) : List PinEvent :=
  outCycles d (bitsOf r 8) ++ ackEvents d 1 ++ readEvents d v (parity v)

/-- A transaction acknowledged FAULT. -/
def faultTransaction (d : List PinEvent) (r : Byte) : List PinEvent := outCycles d (bitsOf r 8) ++ ackEvents d 4

/-- Of R205 (g): a valid tracking holds the fields of a word that was written to SELECT and acknowledged OK. -/
def Tracked (s : State) : Prop :=
  s.selValid = true → ∃ v delayCount : Word,
    s.selApsel = v.extractLsb' 24 8 ∧ s.selApbank = v.extractLsb' 4 4 ∧ s.selDpbank = v.extractLsb' 0 4
    ∧ writeTransaction (delayEvents delayCount) 0xB1 v <:+: s.trace

/-- What holds after reset and after every command: of R205 what one state and its trace can show. That an event is the
latest of its kind is said of each step, not here. -/
structure BetweenCommands (s : State) : Prop where
  /-- (a), (b), (d), and the first halves of (e) and (f). -/
  consistent : Consistent s
  /-- (c). -/
  idle : s.phase = .idle
  /-- Of (e), second half, what follows from it: while `tries` is 0 there is nothing that only an access leaves, and every
  outcome is Ok or Refused. -/
  noAccessYet : s.tries = 0 →
    s.fault = false ∧ s.selValid = false ∧ s.idcode = none
    ∧ ∀ o ∈ s.outcomes, (∃ v, o = .ok v) ∨ ∃ r, o = .refused r
  /-- Of (f), second half: `idcode` is a word that some read of DP address 0x0 brought, acknowledged OK and with the right
  parity. -/
  idcodeRead : ∀ v, s.idcode = some v →
    ∃ delayCount : Word, readTransaction (delayEvents delayCount) 0xA5 v <:+: s.trace
  /-- The same of `targetid` and DP address 0x4 (43_dp_sequencer.md R154). -/
  targetidRead : ∀ w, s.targetid = some w →
    ∃ delayCount : Word, readTransaction (delayEvents delayCount) 0x8D w <:+: s.trace
  /-- Of (g): some SELECT write of the tracked fields was acknowledged OK. -/
  tracked : Tracked s
  /-- Of (h): with the latch set, some transaction was acknowledged FAULT. -/
  faultAcknowledged : s.fault = true →
    ∃ r ∈ requestBytes, ∃ delayCount : Word, faultTransaction (delayEvents delayCount) r <:+: s.trace

/-- The commands that make accesses (43_dp_sequencer.md R141 to R154). -/
def MakesAccess (i : Instr) : Prop :=
  i = .dpAttach ∨ (∃ rnw addr value, i = .lowAccess rnw addr value) ∨ (∃ addr, i = .dpRead addr)
    ∨ (∃ addr value, i = .dpWrite addr value) ∨ (∃ value, i = .dpAbort value)
    ∨ (∃ apsel addr, i = .apRead apsel addr) ∨ ∃ apsel addr value, i = .apWrite apsel addr value

/-! ### Comparing states -/

/-- A trace with its delays erased (00_scope.md R7: "up to delay"). -/
def eraseDelays (t : List PinEvent) : List PinEvent := t.filter fun e => decide (e ≠ .delay)

/-- The same state but for `delay_count` and the delays of the trace. -/
def SameUpToDelay (s t : State) : Prop :=
  { s with delayCount := 0, trace := eraseDelays s.trace } = { t with delayCount := 0, trace := eraseDelays t.trace }

/-- Everything of the state that belongs to the JTAG family alone is equal (40_jtag_tap.md). -/
def SameJtag (s t : State) : Prop :=
  t.tck = s.tck ∧ t.tms = s.tms ∧ t.tdi = s.tdi ∧ t.trst = s.trst ∧ t.tapShadow = s.tapShadow ∧ t.tdo = s.tdo

/-- Everything of the state that belongs to the SWD line is equal (41_swd_sequence.md). -/
def SameSwd (s t : State) : Prop :=
  t.swclk = s.swclk ∧ t.swdioOut = s.swdioOut ∧ t.swdioOe = s.swdioOe ∧ t.swdDir = s.swdDir ∧ t.swdioIn = s.swdioIn

/-- The framer's registers are equal (10_state.md R16). -/
def SameFramer (s t : State) : Prop :=
  t.req = s.req ∧ t.ack = s.ack ∧ t.wdata = s.wdata ∧ t.rdata = s.rdata ∧ t.pok = s.pok

/-- The SELECT tracking is equal (R23). -/
def SameTracking (s t : State) : Prop :=
  t.selValid = s.selValid ∧ t.selApsel = s.selApsel ∧ t.selApbank = s.selApbank ∧ t.selDpbank = s.selDpbank

/-- The connection registers are equal (R20 to R22). -/
def SameConnection (s t : State) : Prop := t.fault = s.fault ∧ t.idcode = s.idcode ∧ t.targetid = s.targetid

/-- The sequencer's control state is equal (R17). -/
def SameControl (s t : State) : Prop := t.phase = s.phase ∧ t.tries = s.tries

end Sys2Proof.Safety
end

