-- ==== Sys2Proof/Certificates/Slice0/Obligations.lean ====
section
/-! DEFINITION. The statements. Each docstring names the rules it follows; where a rule rests on a decision of the spec
(D<n>, 92_eei_decisions.md), on general knowledge (GK<n>) or on a choice of the model (log <n>), it says so. -/

open Sys2Proof Sys2Proof.Machine Sys2Proof.Safety

/-! ### Encoding -/

/-- Decoding the encoding of a well-formed instruction gives it back, and the bytes after it (R60 to R64, R67, R70;
operand layout: the model's choice, log 1). -/
def Obligations.DecodeOfEncode : Prop :=
  ∀ (i : Instr) (rest : List Byte), i.wellFormed = true → decode i.format (encode i ++ rest) = .ok (i, rest)

/-- The decoder reads nothing but encodings of well-formed instructions (R73; operand layout: log 1). -/
def Obligations.DecodedIsEncoded : Prop :=
  ∀ (f : Format) (bs rest : List Byte) (i : Instr), decode f bs = .ok (i, rest) →
    i.format = f ∧ i.wellFormed = true ∧ encode i ++ rest = bs

/-- Words written out from the tables of R62, R63 and R70 decode to their instructions (codes: D3; start bit: GK1; ACK
codes: GK2; operand layout: log 1). -/
def Obligations.TableWordsDecode : Prop :=
  decode .cmd [0x00] = .ok (.jtagReset, [])
    ∧ decode .cmd [0x01, 1, 0] = .ok (.jtagNext true false, [])
    ∧ decode .cmd [0x0A, 3, 0, 0, 0] = .ok (.seqIn 3, [])
    ∧ decode .cmd [0x10, 1, 0xFC, 1, 0, 0, 0, 0] = .ok (.lowAccess true 0x1FC 0, [])
    ∧ decode .cmd [0x15, 1, 0x04, 0, 0, 0, 0x20] = .ok (.apWrite 1 0x04 0x20000000, [])
    ∧ decode .req [0xA5] = .ok (.reqDpRA0, [])
    ∧ decode .req [0x9F] = .ok (.reqApRAC, [])
    ∧ decode .ack [1] = .ok (.ackOk, [])
    ∧ decode .ack [4] = .ok (.ackFault, [])
    ∧ decode .dataW [0x01, 0, 0, 0, 1] = .ok (.dataW 1, [])

/-! ### The machine as a whole -/

/-- What reset leaves, for the registers R200 gives a value (`swd_dir` and `SWDIO_OE` from the source, the others D23), and
an idle block with nothing presented and nothing on the wire (R200, R201). -/
def Obligations.ResetLeaves : Prop :=
  State.reset.swdDir = .float ∧ State.reset.swdioOe = false ∧ State.reset.tck = false ∧ State.reset.swclk = false
    ∧ State.reset.trst = true ∧ State.reset.delayCount = Config.openParams.delayReset
    ∧ State.reset.phase = .idle ∧ State.reset.tries = 0 ∧ State.reset.fault = false
    ∧ State.reset.idcode = none ∧ State.reset.targetid = none ∧ State.reset.selValid = false
    ∧ State.reset.trace = [] ∧ step State.reset = .next State.reset

/-- Consistent and BetweenCommands hold at reset: of what R205 says holds between commands, (a) to (d) and the first halves of
(e) and (f) whole, and of the other parts what one state and its trace can show. Of an event that R205 calls the latest of its
kind they say that it is in the trace; that it is the latest is said step by step: for (f) by DpAttachLoads,
FailedAttachLeavesNoValue and SequencerFrame; for (g) by TrackingFollowsSelectWrites (no other event changes it) with
LowAccessWrites, LowAccessTimesOut, LowAccessFaults, LowAccessInvalidAck and FailedAccessEndsCommand (each SELECT write does);
for (h) by FaultRisesOnlyOnFaultAck and FaultFallsOnlyOnAbortOrAttach. The second half of (e) is said step by step by StepKeepsConsistency. -/
def Obligations.ResetIsConsistent : Prop := Consistent State.reset ∧ BetweenCommands State.reset

/-- Every step keeps Consistent, from every state that meets it, also inside an access; and every step keeps BetweenCommands:
of R205 (a) to (d) and the first halves of (e) and (f) whole, and of (f), (g) and (h) that the events they speak of are in the
trace (that they are the latest: see ResetIsConsistent). The second half of (e), `tries` = 0 only if no access has run, step by
step: at an idle block a command that makes accesses ends Refused with nothing changed or leaves `tries` at least 1, and
every other instruction leaves `tries` as it is (layout and codes GK1 to GK4; D19, D22). -/
def Obligations.StepKeepsConsistency : Prop :=
  (∀ s t : State, Consistent s → step s = .next t → Consistent t)
  ∧ (∀ s t : State, BetweenCommands s → step s = .next t → BetweenCommands t)
  ∧ ∀ (i : Instr) (s t : State), s.phase = .idle → exec i s = .next t →
    (MakesAccess i → (∃ r, t = { s with outcomes := s.outcomes ++ [.refused r] }) ∨ 1 ≤ t.tries)
    ∧ (¬MakesAccess i → t.tries = s.tries)

/-- When the bytes of the packet at the port begin with an instruction `i`, a step is `i`'s execution in the state without the
packet; with nothing presented an idle block stays as it is (R70, R201; port: log 2, log 22). That the bytes `tail` after the
instruction are dropped is the model's choice (log 29). -/
def Obligations.StepRunsDecoded : Prop :=
  (∀ (s : State) (f : Format) (bytes tail : List Byte) (rest : List Packet) (i : Instr),
    s.port = ⟨f, bytes⟩ :: rest → decode f bytes = .ok (i, tail) → step s = exec i { s with port := rest })
  ∧ ∀ s : State, s.port = [] → s.phase = .idle → step s = .next s

/-- An unknown command code at an idle block ends with Refused(BadCommand), no pin event and no other change
(R70, R73 (e); D36). -/
def Obligations.UnknownCodeRefused : Prop :=
  ∀ (s : State) (op : Byte) (tail : List Byte) (rest : List Packet),
    op.toNat ∉ [0x00, 0x01, 0x02, 0x03, 0x04, 0x08, 0x09, 0x0A, 0x0B, 0x0C, 0x10, 0x11, 0x12, 0x13, 0x14, 0x15,
      0x16, 0x17, 0x18, 0x19] →
    s.port = ⟨.cmd, op :: tail⟩ :: rest → s.phase = .idle →
    step s = .next { s with port := rest, outcomes := s.outcomes ++ [.refused .badCommand] }

/-- A command presented to a block that is not idle has no step (R184 (a), R185: stuck; D28). -/
def Obligations.CommandWhileBusyStuck : Prop :=
  ∀ (i : Instr) (s : State), i.format = .cmd → s.phase ≠ .idle → exec i s = .fault .commandWhileBusy

/-- Every command presented to an idle block ends: the block is idle again, one outcome is handed over, and the trace only
grew (R179, R184, R206). -/
def Obligations.CommandsEnd : Prop :=
  ∀ (i : Instr) (s : State), i.format = .cmd → s.phase = .idle →
    ∃ (t : State) (o : CmdOutcome) (tr : List PinEvent), exec i s = .next t ∧ t.phase = .idle ∧ t.port = s.port
      ∧ t.outcomes = s.outcomes ++ [o] ∧ t.trace = s.trace ++ tr

/-- A refused command produces no pin event and changes no state (R175; D36). -/
def Obligations.RefusedChangesNothing : Prop :=
  ∀ (i : Instr) (s t : State) (r : Reason), exec i s = .next t → t.outcomes = s.outcomes ++ [.refused r] →
    t = { s with outcomes := s.outcomes ++ [.refused r] }

/-- Two states that differ only in `delay_count` and in the delays of their traces stay so under every instruction: all
other events, the outcomes and the end state are equal (R86, R112). -/
def Obligations.DelayIndependence : Prop :=
  ∀ (i : Instr) (s t s' : State), SameUpToDelay s t → exec i s = .next s' →
    ∃ t', exec i t = .next t' ∧ SameUpToDelay s' t'

/-- The `fault` latch gates nothing: with another value of it every instruction but `fault_read` does the same, the latch
itself apart (R20; D17). -/
def Obligations.FaultGatesNothing : Prop :=
  ∀ (i : Instr) (s t : State) (b : Bool), i ≠ .faultRead → exec i s = .next t →
    ∃ f, exec i { s with fault := b } = .next { t with fault := f }

/-- No rule reads the ghost TAP state (R26; D30). -/
def Obligations.GhostIsUnread : Prop :=
  ∀ (i : Instr) (s t : State) (x : TapState), exec i s = .next t →
    ∃ y, exec i { s with tapShadow := x } = .next { t with tapShadow := y }

/-- The latch rises only when an acknowledge FAULT was received, and a command that makes it rise ends with ProtocolFault
(R20, R143, R172; ACK code: GK2). -/
def Obligations.FaultRisesOnlyOnFaultAck : Prop :=
  ∀ (i : Instr) (s t : State), exec i s = .next t → s.fault = false → t.fault = true →
    t.ack = 4 ∧ (i.format = .cmd → t.outcomes = s.outcomes ++ [.protocolFault])

/-- The latch falls only on `dp_attach` or on a write to ABORT acknowledged OK (R20, R143; D16; request byte R62, ACK code
GK2). -/
def Obligations.FaultFallsOnlyOnAbortOrAttach : Prop :=
  ∀ (i : Instr) (s t : State), exec i s = .next t → s.fault = true → t.fault = false →
    i = .dpAttach ∨ (t.req = 0x81 ∧ t.ack = 1 ∧ t.outcomes = s.outcomes ++ [.ok .nothing])

/-- A valid tracking holds the fields of a word that the block wrote to SELECT and the target acknowledged OK, as the trace
shows: so at reset, and kept by every instruction in every state and by every step of a block that is idle, which stays
idle. And it changes to another valid one only by such a write: where it is valid after an instruction it is as before, or it
holds the fields of a word written in this very instruction. That every such write changes it, and one that ends otherwise drops
it, is not said here but by LowAccessWrites, LowAccessTimesOut, LowAccessFaults, LowAccessInvalidAck and
FailedAccessEndsCommand (R144, and of R205 (g) what the trace shows; D19; layout GK4; request byte and ACK code GK1 to GK3). -/
def Obligations.TrackingFollowsSelectWrites : Prop :=
  Tracked State.reset
  ∧ (∀ (i : Instr) (s t : State), Tracked s → exec i s = .next t → Tracked t)
  ∧ (∀ s t : State, s.phase = .idle → Tracked s → step s = .next t → t.phase = .idle ∧ Tracked t)
  ∧ ∀ (i : Instr) (s t : State), exec i s = .next t → t.selValid = true →
    SameTracking s t ∨
      ∃ (v : Word) (pre post : List PinEvent),
        t.selApsel = v.extractLsb' 24 8 ∧ t.selApbank = v.extractLsb' 4 4 ∧ t.selDpbank = v.extractLsb' 0 4
        ∧ t.trace = s.trace ++ pre
            ++ (outCycles (delayEvents s.delayCount) (bitsOf (0xB1 : Byte) 8) ++ ackEvents (delayEvents s.delayCount) 1
              ++ writeEvents (delayEvents s.delayCount) v)
            ++ post

/-- The phase machine of R141, run step by step from an accepted access with nothing else presented, ends in the very
state the atomic `low_access` leaves from there; it needs at most two steps an attempt and two more, and then stays
(R141, R142; the two views of one access: log 5, log 24). -/
def Obligations.PhaseMachineRefinesLowAccess : Prop :=
  ∀ (rnw : Bool) (addr : BitVec 9) (value : Word) (s : State), addr.extractLsb' 0 2 = 0 → s.port = [] →
    Host.Core.run Sys2Proof.core (2 * Config.params.retryBound + 2) (acceptAccess Config.params rnw addr value s)
      = .next (endCommand (lowAccess Config.params rnw addr value (acceptAccess Config.params rnw addr value s)))

/-- Every sequencer command ends within R156's number of SWCLK cycles: 47 `RETRY_BOUND` for each access it may make. -/
def Obligations.AccessCyclesBounded : Prop :=
  ∀ (s t : State), s.phase = .idle → ∀ (rnw : Bool) (addr9 : BitVec 9) (apsel addr : Byte) (value : Word),
    (exec (.lowAccess rnw addr9 value) s = .next t ∨ exec (.dpAbort value) s = .next t →
      swclkSpent s t ≤ 47 * Config.params.retryBound)
    ∧ (exec (.dpRead addr) s = .next t ∨ exec (.dpWrite addr value) s = .next t ∨ exec (.apRead apsel addr) s = .next t
        ∨ exec (.apWrite apsel addr value) s = .next t →
      swclkSpent s t ≤ 2 * (47 * Config.params.retryBound))
    ∧ (exec .dpAttach s = .next t → swclkSpent s t ≤ 3 * (47 * Config.params.retryBound))

/-! ### Frames of the families -/

/-- No instruction of the JTAG family changes the SWD line, the framer's registers, the tracking, the connection registers,
the sequencer's control state, the delay or the port (40_jtag_tap.md, header). -/
def Obligations.JtagFamilyFrame : Prop :=
  ∀ (s t : State) (b c : Bool) (bits : Word) (tdi : List Byte) (n : Nat),
    (exec .jtagReset s = .next t ∨ exec (.jtagNext b c) s = .next t ∨ exec (.shiftTmsSequence bits n) s = .next t
      ∨ exec (.shiftData tdi n b) s = .next t ∨ exec (.shiftDataDiscardOutput tdi n b) s = .next t
      ∨ exec (.tmsseq bits n) s = .next t ∨ exec (.shift tdi n b) s = .next t) →
    SameSwd s t ∧ SameFramer s t ∧ SameTracking s t ∧ SameConnection s t ∧ SameControl s t
      ∧ t.delayCount = s.delayCount ∧ t.port = s.port

/-- No SWD sequence command and no TURN changes the JTAG pins, the framer's registers, the tracking, the connection
registers or the sequencer's control state (41_swd_sequence.md, header); none but `set_delay` changes the delay (R14). -/
def Obligations.SwdSequenceFrame : Prop :=
  ∀ (s t : State) (v : Word) (n : Nat),
    (exec (.seqOut v n) s = .next t ∨ exec (.seqOutWithParity v n) s = .next t ∨ exec (.seqIn n) s = .next t
      ∨ exec (.seqInWithParity n) s = .next t ∨ exec .turn s = .next t) →
    SameJtag s t ∧ SameFramer s t ∧ SameTracking s t ∧ SameConnection s t ∧ SameControl s t
      ∧ t.delayCount = s.delayCount ∧ t.port = s.port

/-- No sequencer command, request, acknowledge or data phase changes the JTAG pins, the delay or the port; `idcode` and
`targetid` change on `dp_attach` only; a request, an acknowledge or a data phase leaves the tracking and the outcomes
(R14, R21, R22, R126). -/
def Obligations.SequencerFrame : Prop :=
  ∀ (i : Instr) (s t : State), exec i s = .next t →
    i ∈ [.dpAttach, .faultRead, .idcodeRead, .targetidRead] ∨ (∃ rnw addr value, i = .lowAccess rnw addr value)
      ∨ (∃ addr, i = .dpRead addr) ∨ (∃ addr value, i = .dpWrite addr value) ∨ (∃ value, i = .dpAbort value)
      ∨ (∃ apsel addr, i = .apRead apsel addr) ∨ (∃ apsel addr value, i = .apWrite apsel addr value)
      ∨ i.format ∈ [.req, .ack, .dataW, .dataR] →
    SameJtag s t ∧ t.delayCount = s.delayCount ∧ t.port = s.port
      ∧ (i ≠ .dpAttach → t.idcode = s.idcode ∧ t.targetid = s.targetid)
      ∧ (i.format ≠ .cmd → SameTracking s t ∧ t.outcomes = s.outcomes)

/-! ### JTAG TAP driver -/

/-- `jtag_next`: one TCK cycle, its events in order, the sampled TDO level the result, nothing else changed (R80; place of
the delays: D9; ghost: GK6). -/
def Obligations.JtagNextCycle : Prop :=
  ∀ (tms tdi : Bool) (s : State), s.phase = .idle →
    exec (.jtagNext tms tdi) s = .next
      { s with
        tms := tms, tdi := tdi, tck := false, tapShadow := tapNext s.tapShadow tms, tdo := s.tdo.next
        trace := s.trace ++ jtagCycle (delayEvents s.delayCount) tms tdi (s.tdo.level Config.freeTdoLevel)
        outcomes := s.outcomes ++ [.ok (.bit (s.tdo.level Config.freeTdoLevel))] }

/-- `shift_tms_sequence` with a count in range: `count` cycles, TMS from `bits` from bit 0 up, TDI high, nothing else changed
(R81; count 0 changes no latch; D11, D12). -/
def Obligations.ShiftTmsSequenceClocks : Prop :=
  ∀ (bits : Word) (count : Nat) (s : State), s.phase = .idle → count ≤ 32 →
    exec (.shiftTmsSequence bits count) s = .next
      { s with
        tms := if count = 0 then s.tms else bits.getLsbD (count - 1)
        tdi := if count = 0 then s.tdi else true
        tck := if count = 0 then s.tck else false
        tapShadow := (bitsOf bits count).foldl tapNext s.tapShadow
        tdo := (s.tdo.draw Config.freeTdoLevel count).2
        trace := s.trace ++ jtagCycles (delayEvents s.delayCount) (bitsOf bits count) (List.replicate count true)
          (s.tdo.draw Config.freeTdoLevel count).1
        outcomes := s.outcomes ++ [.ok .nothing] }

/-- `shift_data` with a count in range: `count` cycles, TDI from the buffer, TMS 0 but `final_tms` in the last, the sampled
levels the result, packed least significant bit first and zero above (R82, R43; packing and padding: D11). Where the
buffer holds fewer bits than cycles the levels past its end are free (the model's choice, log 31). -/
def Obligations.ShiftDataClocks : Prop :=
  ∀ (tdi : List Byte) (count : Nat) (finalTms : Bool) (s : State), s.phase = .idle → 1 ≤ count →
    count ≤ Config.params.jtagShiftMax →
    (∀ i < 8 * tdi.length, shiftLevel tdi s.outcomes.length i = bufferBit tdi i)
    ∧ ∃ bytes : List Byte, bytes.length = (count + 7) / 8
      ∧ (∀ k < 8 * bytes.length, bufferBit bytes k = (s.tdo.draw Config.freeTdoLevel count).1.getD k false)
      ∧ exec (.shiftData tdi count finalTms) s = .next
        { s with
          tms := finalTms, tdi := shiftLevel tdi s.outcomes.length (count - 1), tck := false
          tapShadow := (shiftTms finalTms count).foldl tapNext s.tapShadow
          tdo := (s.tdo.draw Config.freeTdoLevel count).2
          trace := s.trace ++ jtagCycles (delayEvents s.delayCount) (shiftTms finalTms count)
            (shiftLevels tdi count s.outcomes.length) (s.tdo.draw Config.freeTdoLevel count).1
          outcomes := s.outcomes ++ [.ok (.buffer bytes)] }

/-- `shift_data_discard_output` with a count in range: the cycles of `shift_data`, no result value (R83; the samples are
kept: D12; a short buffer: log 31). -/
def Obligations.ShiftDataDiscardOutputClocks : Prop :=
  ∀ (tdi : List Byte) (count : Nat) (finalTms : Bool) (s : State), s.phase = .idle → 1 ≤ count →
    count ≤ Config.params.jtagShiftMax →
    exec (.shiftDataDiscardOutput tdi count finalTms) s = .next
      { s with
        tms := finalTms, tdi := shiftLevel tdi s.outcomes.length (count - 1), tck := false
        tapShadow := (shiftTms finalTms count).foldl tapNext s.tapShadow
        tdo := (s.tdo.draw Config.freeTdoLevel count).2
        trace := s.trace ++ jtagCycles (delayEvents s.delayCount) (shiftTms finalTms count)
          (shiftLevels tdi count s.outcomes.length) (s.tdo.draw Config.freeTdoLevel count).1
        outcomes := s.outcomes ++ [.ok .nothing] }

/-- A JTAG count out of its range is refused before any pin event (R87; D11, D36). -/
def Obligations.JtagBadCountRefused : Prop :=
  ∀ (s : State), s.phase = .idle →
    (∀ (bits : Word) (count : Nat), 32 < count →
      exec (.shiftTmsSequence bits count) s = .next { s with outcomes := s.outcomes ++ [.refused .badCount] })
    ∧ ∀ (tdi : List Byte) (count : Nat) (finalTms : Bool), count = 0 ∨ Config.params.jtagShiftMax < count →
      exec (.shiftData tdi count finalTms) s = .next { s with outcomes := s.outcomes ++ [.refused .badCount] }
      ∧ exec (.shiftDataDiscardOutput tdi count finalTms) s
          = .next { s with outcomes := s.outcomes ++ [.refused .badCount] }

/-- `jtag_reset`: the TRST pulse where the line exists, then six cycles with TMS and TDI high; the ghost TAP is in
Test-Logic-Reset from every state (R84, R88; polarity GK7, TAP table GK6, pattern D35). -/
def Obligations.JtagResetReachesTestLogicReset : Prop :=
  ∀ s : State, s.phase = .idle →
    exec .jtagReset s = .next
      { s with
        trst := if Config.params.open5.hasTrst then true else s.trst
        tms := true, tdi := true, tck := false, tapShadow := .testLogicReset
        tdo := (s.tdo.draw Config.freeTdoLevel 6).2
        trace := s.trace
          ++ (if Config.params.open5.hasTrst then [.write .trst false, .write .trst true] else [])
          ++ jtagCycles (delayEvents s.delayCount) (List.replicate 6 true) (List.replicate 6 true)
            (s.tdo.draw Config.freeTdoLevel 6).1
        outcomes := s.outcomes ++ [.ok .nothing] }

/-- With one buffer of at least `count` bits (R82) for input and output the data shift gives the same bits and leaves the same
state as with two: the buffer's first bytes are the packed result, zero past bit `count` - 1, and the bytes after them stay;
and for a count in range that is the result of `shift_data` (R54, R82, R85; D11; the bytes that stay: log 32). -/
def Obligations.AliasedBufferAgrees : Prop :=
  ∀ (tdi : List Byte) (count : Nat) (finalTms : Bool) (s : State), count ≤ 8 * tdi.length →
    let one := clockDataInPlace finalTms count tdi s
    let two := clockData finalTms (shiftLevels tdi count s.outcomes.length) s
    one.2 = two.2 ∧ bufferBits one.1 count = two.1
    ∧ one.1 = packBits two.1 ++ tdi.drop ((count + 7) / 8)
    ∧ (1 ≤ count → count ≤ Config.params.jtagShiftMax →
      shiftData Config.params tdi count finalTms s = (.ok (.buffer (one.1.take ((count + 7) / 8))), one.2))

/-- The wire formats TMSSEQ and SHIFT: `count` cycles as R67 lays them out, no outcome (the model's choice to run them as
steps: log 2; at any length: log 30). -/
def Obligations.JtagWireFormatsClock : Prop :=
  (∀ (bits : Word) (count : Nat) (s : State),
    exec (.tmsseq bits count) s = .next
      { s with
        tms := if count = 0 then s.tms else bits.getLsbD (count - 1)
        tdi := if count = 0 then s.tdi else true
        tck := if count = 0 then s.tck else false
        tapShadow := (bitsOf bits count).foldl tapNext s.tapShadow
        tdo := (s.tdo.draw Config.freeTdoLevel count).2
        trace := s.trace ++ jtagCycles (delayEvents s.delayCount) (bitsOf bits count) (List.replicate count true)
          (s.tdo.draw Config.freeTdoLevel count).1 })
  ∧ ∀ (tdi : List Byte) (count : Nat) (finalTms : Bool) (s : State), 1 ≤ count →
    exec (.shift tdi count finalTms) s = .next
      { s with
        tms := finalTms, tdi := shiftLevel tdi s.outcomes.length (count - 1), tck := false
        tapShadow := (shiftTms finalTms count).foldl tapNext s.tapShadow
        tdo := (s.tdo.draw Config.freeTdoLevel count).2
        trace := s.trace ++ jtagCycles (delayEvents s.delayCount) (shiftTms finalTms count)
          (shiftLevels tdi count s.outcomes.length) (s.tdo.draw Config.freeTdoLevel count).1 }

/-- TCK cycles of each JTAG command: 1, `count`, `count`, `count`, 6, whatever the target answers (R89). -/
def Obligations.JtagCycleCounts : Prop :=
  ∀ (s t : State) (b c : Bool) (bits : Word) (tdi : List Byte) (n : Nat),
    (exec (.jtagNext b c) s = .next t → tckCycles t.trace = tckCycles s.trace + 1)
    ∧ (n ≤ 32 → exec (.shiftTmsSequence bits n) s = .next t → tckCycles t.trace = tckCycles s.trace + n)
    ∧ (1 ≤ n → n ≤ Config.params.jtagShiftMax →
        exec (.shiftData tdi n b) s = .next t ∨ exec (.shiftDataDiscardOutput tdi n b) s = .next t →
        tckCycles t.trace = tckCycles s.trace + n)
    ∧ (exec .jtagReset s = .next t → tckCycles t.trace = tckCycles s.trace + 6)

/-! ### SWD sequence layer -/

/-- `parity` is the number of 1 bits modulo 2; sent after the data it makes the number of 1 bits even; it is the exclusive or
of all 32 bits (R108). -/
def Obligations.ParityIsXor : Prop :=
  ∀ v : Word,
    (parity v = true ↔ (List.range 32).countP (fun i => v.getLsbD i) % 2 = 1)
    ∧ ((List.range 32).countP (fun i => v.getLsbD i) + (parity v).toNat) % 2 = 0
    ∧ parity v = (List.range 32).foldl (fun acc i => acc ^^ v.getLsbD i) false

/-- `seq_out` with a count in range: a turnaround to DRIVE if the line was floated, then `count` output cycles from bit 0 up,
nothing else changed (R100, R103, R106; cycle: D4; place of the mode switch: D5). -/
def Obligations.SeqOutSends : Prop :=
  ∀ (bits : Word) (count : Nat) (s : State), Consistent s → s.phase = .idle → count ≤ 32 →
    exec (.seqOut bits count) s = .next
      { s with
        swdDir := .drive, swdioOe := true
        swdioOut := if count = 0 then s.swdioOut else bits.getLsbD (count - 1)
        trace := s.trace ++ turnEvents (delayEvents s.delayCount) s.swdDir .drive
          ++ outCycles (delayEvents s.delayCount) (bitsOf bits count)
        outcomes := s.outcomes ++ [.ok .nothing] }

/-- `seq_out_with_parity` with a count in range: as `seq_out`, then one cycle with the parity of all 32 bits of the operand
(R107, R108; D8). -/
def Obligations.SeqOutWithParitySends : Prop :=
  ∀ (value : Word) (count : Nat) (s : State), Consistent s → s.phase = .idle → count ≤ 32 →
    exec (.seqOutWithParity value count) s = .next
      { s with
        swdDir := .drive, swdioOe := true, swdioOut := parity value
        trace := s.trace ++ turnEvents (delayEvents s.delayCount) s.swdDir .drive
          ++ outCycles (delayEvents s.delayCount) (bitsOf value count ++ [parity value])
        outcomes := s.outcomes ++ [.ok .nothing] }

/-- `seq_in` with a count in range: a turnaround to FLOAT if the line was driven, then `count` input cycles; bit `i` of the
result is the `i`-th level, zero above; the line stays floated (R104; D6, D7). -/
def Obligations.SeqInReceives : Prop :=
  ∀ (count : Nat) (s : State), Consistent s → s.phase = .idle → count ≤ 32 →
    ∃ v : Word, (∀ k < 32, v.getLsbD k = (s.swdioIn.draw Config.freeSwdioLevel count).1.getD k false)
      ∧ exec (.seqIn count) s = .next
        { s with
          swdDir := .float, swdioOe := false, swdioIn := (s.swdioIn.draw Config.freeSwdioLevel count).2
          trace := s.trace ++ turnEvents (delayEvents s.delayCount) s.swdDir .float
            ++ inCycles (delayEvents s.delayCount) (s.swdioIn.draw Config.freeSwdioLevel count).1
          outcomes := s.outcomes ++ [.ok (.word v)] }

/-- `seq_in_with_parity` with a count in range: as `seq_in`, one more input cycle for the parity bit, then the turnaround
back to DRIVE; `parity_ok` compares that bit with the parity of the value (R105, R108; D6). -/
def Obligations.SeqInWithParityReceives : Prop :=
  ∀ (count : Nat) (s : State), Consistent s → s.phase = .idle → count ≤ 32 →
    ∃ (v : Word) (levels : List Bool) (par : Bool),
      levels.length = count ∧ (s.swdioIn.draw Config.freeSwdioLevel (count + 1)).1 = levels ++ [par]
      ∧ (∀ k < 32, v.getLsbD k = levels.getD k false)
      ∧ exec (.seqInWithParity count) s = .next
        { s with
          swdDir := .drive, swdioOe := true, swdioIn := (s.swdioIn.draw Config.freeSwdioLevel (count + 1)).2
          trace := s.trace ++ turnEvents (delayEvents s.delayCount) s.swdDir .float
            ++ inCycles (delayEvents s.delayCount) (levels ++ [par])
            ++ turnEvents (delayEvents s.delayCount) .float .drive
          outcomes := s.outcomes ++ [.ok (.wordParity v (decide (par = parity v)))] }

/-- An SWD count above 32 is refused before any pin event, the turnaround included (R113; D7, D36). -/
def Obligations.SwdBadCountRefused : Prop :=
  ∀ (i : Instr) (v : Word) (count : Nat) (s : State), s.phase = .idle → 32 < count →
    i ∈ [.seqOut v count, .seqOutWithParity v count, .seqIn count, .seqInWithParity count] →
    exec i s = .next { s with outcomes := s.outcomes ++ [.refused .badCount] }

/-- `set_delay(n)` writes `delay_count`, produces no pin event and ends Ok (R111; D29). -/
def Obligations.SetDelayWrites : Prop :=
  ∀ (n : Word) (s : State), s.phase = .idle →
    exec (.setDelay n) s = .next { s with delayCount := n, outcomes := s.outcomes ++ [.ok .nothing] }

/-- Two consecutive `seq_in` from a driven line float it exactly once, and cost one turnaround cycle in all (R110). -/
def Obligations.ConsecutiveSeqInFloatsOnce : Prop :=
  ∀ (m n : Nat) (s : State), Consistent s → s.phase = .idle → s.swdDir = .drive → m ≤ 32 → n ≤ 32 →
    ∃ (t u : State) (tr : List PinEvent), exec (.seqIn m) s = .next t ∧ exec (.seqIn n) t = .next u
      ∧ u.trace = s.trace ++ tr ∧ tr.count (.mode .float) = 1 ∧ tr.count (.mode .drive) = 0
      ∧ swclkCycles tr = 1 + m + n

/-- SWCLK cycles and direction on exit of the four sequence commands, whatever the target answers (R110). -/
def Obligations.SwdCycleCounts : Prop :=
  ∀ (s t : State) (v : Word) (n : Nat), n ≤ 32 →
    (exec (.seqOut v n) s = .next t →
      swclkCycles t.trace = swclkCycles s.trace + turnCost s.swdDir .drive + n ∧ t.swdDir = .drive)
    ∧ (exec (.seqOutWithParity v n) s = .next t →
      swclkCycles t.trace = swclkCycles s.trace + turnCost s.swdDir .drive + n + 1 ∧ t.swdDir = .drive)
    ∧ (exec (.seqIn n) s = .next t →
      swclkCycles t.trace = swclkCycles s.trace + turnCost s.swdDir .float + n ∧ t.swdDir = .float)
    ∧ (exec (.seqInWithParity n) s = .next t →
      swclkCycles t.trace = swclkCycles s.trace + turnCost s.swdDir .float + n + 2 ∧ t.swdDir = .drive)

/-- TURN: one throwaway cycle to the other direction, no bit written or sampled, the line released before it and taken after it;
and it is the empty `seq_out` or the empty `seq_in`, whichever changes the direction, but for their outcome (R65, R103; D5;
running it as a step: the model's choice, log 2, log 26). -/
def Obligations.TurnSpendsOneCycle : Prop :=
  ∀ s : State, Consistent s →
    (s.swdDir = .drive → exec .turn s = .next (seqIn 0 s).2 ∧ exec .turn s = .next
      { s with
        swdDir := .float, swdioOe := false
        trace := s.trace ++ [.mode .float] ++ swclkCycle (delayEvents s.delayCount) })
    ∧ (s.swdDir = .float → exec .turn s = .next (seqOut 0 0 s).2 ∧ exec .turn s = .next
      { s with
        swdDir := .drive, swdioOe := true
        trace := s.trace ++ swclkCycle (delayEvents s.delayCount) ++ [.mode .drive] })

/-! ### Packet framer -/

/-- The request encoder gives R62's table; its parity bit is the exclusive or of APnDP, RnW, A[2] and A[3], stop is 0 and
park is 1 (R61, R62, R121; start bit: GK1). -/
def Obligations.RequestBytesMatchTable : Prop :=
  ∀ (apndp rnw : Bool) (a : BitVec 2),
    makeRequest Config.params apndp rnw a = requestByte apndp rnw a
    ∧ (requestByte apndp rnw a).getLsbD 5 = (apndp ^^ rnw ^^ a.getLsbD 0 ^^ a.getLsbD 1)
    ∧ (requestByte apndp rnw a).getLsbD 6 = false ∧ (requestByte apndp rnw a).getLsbD 7 = true

/-- Each of the sixteen requests puts its byte of R62's table on the wire, after a turnaround if the line was floated; in
S_REQ it counts the attempt and goes to S_ACK (R126 step 1, R141; running it as a step: log 2, log 26). -/
def Obligations.RequestsGoOut : Prop :=
  ∀ x ∈ [(Instr.reqDpWA0, (0x81 : Byte)), (.reqDpWA4, 0xA9), (.reqDpWA8, 0xB1), (.reqDpWAC, 0x99), (.reqDpRA0, 0xA5),
      (.reqDpRA4, 0x8D), (.reqDpRA8, 0x95), (.reqDpRAC, 0xBD), (.reqApWA0, 0xA3), (.reqApWA4, 0x8B), (.reqApWA8, 0x93),
      (.reqApWAC, 0xBB), (.reqApRA0, 0x87), (.reqApRA4, 0xAF), (.reqApRA8, 0xB7), (.reqApRAC, 0x9F)],
    ∀ s : State, Consistent s →
      exec x.1 s = .next
        { s with
          req := x.2, swdDir := .drive, swdioOe := true, swdioOut := true
          trace := s.trace ++ turnEvents (delayEvents s.delayCount) s.swdDir .drive
            ++ outCycles (delayEvents s.delayCount) (bitsOf x.2 8)
          tries := if s.phase = .req then s.tries + 1 else s.tries
          phase := if s.phase = .req then .ack else s.phase }

/-- Each of the eight acknowledge values, presented by the target in the three acknowledge cycles: it is received, the line
stays floated, and in S_ACK the phase goes where R141's table says, FAULT setting the latch (R126 step 2, R141, R143;
codes GK2, D13; running it as a step: log 2, log 26). -/
def Obligations.AcksAreReceived : Prop :=
  ∀ x ∈ [(Instr.ackOk, (1 : BitVec 3)), (.ackWait, 2), (.ackFault, 4), (.ackInvalid0, 0), (.ackInvalid3, 3),
      (.ackInvalid5, 5), (.ackInvalid6, 6), (.ackInvalid7, 7)],
    ∀ s : State, Consistent s →
      exec x.1 s = .next
        { s with
          ack := x.2, swdDir := .float, swdioOe := false
          trace := s.trace ++ turnEvents (delayEvents s.delayCount) s.swdDir .float
            ++ inCycles (delayEvents s.delayCount) (bitsOf x.2 3)
          phase :=
            if s.phase = .ack then
              (if x.2 = 1 then (if s.req.getLsbD 2 then .rdata else .wdata)
              else if x.2 = 2 ∧ s.tries < Config.params.retryBound then .req else .done)
            else s.phase
          fault := if s.phase = .ack ∧ x.2 = 4 then true else s.fault }

/-- The two data phases: the block drives 32 bits and their parity; or it takes 32 bits and a parity bit and turns the line
back; in S_WDATA and S_RDATA the next phase is S_DONE (R64, R124, R125, R141; running them as steps: log 2, log 26). -/
def Obligations.DataPhasesMoveWords : Prop :=
  ∀ s : State, Consistent s →
    (∀ v : Word, exec (.dataW v) s = .next
      { s with
        wdata := v, swdDir := .drive, swdioOe := true, swdioOut := parity v
        trace := s.trace ++ turnEvents (delayEvents s.delayCount) s.swdDir .drive
          ++ outCycles (delayEvents s.delayCount) (bitsOf v 32 ++ [parity v])
        phase := if s.phase = .wdata then .done else s.phase })
    ∧ ∀ (v : Word) (par : Bool), exec (.dataR v par) s = .next
      { s with
        rdata := v, pok := decide (par = parity v), swdDir := .drive, swdioOe := true
        trace := s.trace ++ turnEvents (delayEvents s.delayCount) s.swdDir .float
          ++ inCycles (delayEvents s.delayCount) (bitsOf v 32 ++ [par])
          ++ turnEvents (delayEvents s.delayCount) .float .drive
        phase := if s.phase = .rdata then .done else s.phase }

/-! ### DP sequencer -/

/-- A read access answered WAIT `n` times, fewer than `RETRY_BOUND`, and then OK with a data phase: `n + 1` requests, the word
as it came, Ok or ParityError by its parity bit, nothing else changed (R141, R142, R173; ACK codes GK2). -/
def Obligations.LowAccessReads : Prop :=
  ∀ (addr : BitVec 9) (value : Word) (n : Nat) (v : Word) (par : Bool) (rest : List Bool) (s : State),
    Consistent s → s.phase = .idle → addr.extractLsb' 0 2 = 0 → n < Config.params.retryBound →
    s.swdioIn.queue = waitAnswers n ++ readAnswers v par ++ rest →
    exec (.lowAccess true addr value) s
      = .next (endCommand (readOutcome v par, afterRead (addr.getLsbD 8) (addr.extractLsb' 2 2) n v par s))

/-- A write access answered WAIT `n` times, fewer than `RETRY_BOUND`, and then OK: `n + 1` requests, one data phase, Ok; a
write to ABORT clears the latch, a write to SELECT is tracked, nothing else changed (R141, R142, R143, R144; D16, D19;
GK2, GK3, GK4). -/
def Obligations.LowAccessWrites : Prop :=
  ∀ (addr : BitVec 9) (v : Word) (n : Nat) (rest : List Bool) (s : State),
    Consistent s → s.phase = .idle → addr.extractLsb' 0 2 = 0 → n < Config.params.retryBound →
    s.swdioIn.queue = waitAnswers n ++ bitsOf (1 : BitVec 3) 3 ++ rest →
    exec (.lowAccess false addr v) s
      = .next (endCommand (.ok .nothing, afterWrite (addr.getLsbD 8) (addr.extractLsb' 2 2) n v s))

/-- An access answered WAIT `RETRY_BOUND` times: exactly that many requests, no data phase, WaitTimeout, the line floated
(R142, R171; ACK code GK2). -/
def Obligations.LowAccessTimesOut : Prop :=
  ∀ (rnw : Bool) (addr : BitVec 9) (value : Word) (rest : List Bool) (s : State),
    Consistent s → s.phase = .idle → addr.extractLsb' 0 2 = 0 →
    s.swdioIn.queue = waitAnswers Config.params.retryBound ++ rest →
    exec (.lowAccess rnw addr value) s
      = .next (endCommand (.waitTimeout,
          afterNoData (addr.getLsbD 8) rnw (addr.extractLsb' 2 2) (Config.params.retryBound - 1) 2 s))

/-- An access answered FAULT after `n` WAITs: ProtocolFault, the latch set, no data phase, no retry, the line floated
(R141, R143, R172, R178; ACK code GK2). -/
def Obligations.LowAccessFaults : Prop :=
  ∀ (rnw : Bool) (addr : BitVec 9) (value : Word) (n : Nat) (rest : List Bool) (s : State),
    Consistent s → s.phase = .idle → addr.extractLsb' 0 2 = 0 → n < Config.params.retryBound →
    s.swdioIn.queue = waitAnswers n ++ bitsOf (4 : BitVec 3) 3 ++ rest →
    exec (.lowAccess rnw addr value) s
      = .next (endCommand (.protocolFault, afterNoData (addr.getLsbD 8) rnw (addr.extractLsb' 2 2) n 4 s))

/-- An access answered none of OK, WAIT, FAULT: InvalidAck with the three bits, the latch unchanged, no data phase, no
retry, the line floated (R73 (b), R174; D13). -/
def Obligations.LowAccessInvalidAck : Prop :=
  ∀ (rnw : Bool) (addr : BitVec 9) (value : Word) (n : Nat) (ack : BitVec 3) (rest : List Bool) (s : State),
    Consistent s → s.phase = .idle → addr.extractLsb' 0 2 = 0 → n < Config.params.retryBound → ack ∈ [0, 3, 5, 6, 7] →
    s.swdioIn.queue = waitAnswers n ++ bitsOf ack 3 ++ rest →
    exec (.lowAccess rnw addr value) s
      = .next (endCommand (.invalidAck ack, afterNoData (addr.getLsbD 8) rnw (addr.extractLsb' 2 2) n ack s))

/-- An address with either of bits [1:0] set is refused with BadAddress, no pin event and no other change (R46, R140; D32). -/
def Obligations.MisalignedAddressRefused : Prop :=
  ∀ (rnw : Bool) (addr9 : BitVec 9) (apsel addr : Byte) (value : Word) (s : State), s.phase = .idle →
    (addr9.extractLsb' 0 2 ≠ 0 →
      exec (.lowAccess rnw addr9 value) s = .next { s with outcomes := s.outcomes ++ [.refused .badAddress] })
    ∧ (addr.extractLsb' 0 2 ≠ 0 →
      ∀ i ∈ [Instr.dpRead addr, .dpWrite addr value, .apRead apsel addr, .apWrite apsel addr value],
        exec i s = .next { s with outcomes := s.outcomes ++ [.refused .badAddress] })

/-- `dp_read`: the bank step, elided when the bank is tracked, else a SELECT write answered OK after `m` WAITs; then one read
of the addressed register, answered OK after `n` WAITs, its word as it came (R145, R146; D19, D20; GK2, GK4). -/
def Obligations.DpReadReads : Prop :=
  ∀ (addr : Byte) (m n : Nat) (v : Word) (par : Bool) (rest : List Bool) (s : State),
    Consistent s → s.phase = .idle → addr.extractLsb' 0 2 = 0 → m < Config.params.retryBound → n < Config.params.retryBound →
    (s.selValid = true → s.selDpbank = addr.extractLsb' 4 4 →
      s.swdioIn.queue = waitAnswers n ++ readAnswers v par ++ rest →
      exec (.dpRead addr) s = .next (endCommand (readOutcome v par, afterRead false (addr.extractLsb' 2 2) n v par s)))
    ∧ (¬(s.selValid = true ∧ s.selDpbank = addr.extractLsb' 4 4) →
      s.swdioIn.queue = waitAnswers m ++ bitsOf (1 : BitVec 3) 3 ++ (waitAnswers n ++ readAnswers v par ++ rest) →
      exec (.dpRead addr) s = .next (endCommand (readOutcome v par,
        afterRead false (addr.extractLsb' 2 2) n v par
          (afterWrite false 2 m (dpSelectWord s (addr.extractLsb' 4 4)) s))))

/-- `dp_write`: to SELECT it is one write and nothing in front; to another register the bank step, elided when the bank is
tracked, and then the write (R145, R147; D19; GK2, GK3, GK4). -/
def Obligations.DpWriteWrites : Prop :=
  ∀ (addr : Byte) (m n : Nat) (v : Word) (rest : List Bool) (s : State),
    Consistent s → s.phase = .idle → addr.extractLsb' 0 2 = 0 → m < Config.params.retryBound → n < Config.params.retryBound →
    ((addr.extractLsb' 2 2 = 2 ∨ (s.selValid = true ∧ s.selDpbank = addr.extractLsb' 4 4)) →
      s.swdioIn.queue = waitAnswers n ++ bitsOf (1 : BitVec 3) 3 ++ rest →
      exec (.dpWrite addr v) s = .next (endCommand (.ok .nothing, afterWrite false (addr.extractLsb' 2 2) n v s)))
    ∧ (addr.extractLsb' 2 2 ≠ 2 → ¬(s.selValid = true ∧ s.selDpbank = addr.extractLsb' 4 4) →
      s.swdioIn.queue
        = waitAnswers m ++ bitsOf (1 : BitVec 3) 3 ++ (waitAnswers n ++ bitsOf (1 : BitVec 3) 3 ++ rest) →
      exec (.dpWrite addr v) s = .next (endCommand (.ok .nothing,
        afterWrite false (addr.extractLsb' 2 2) n v
          (afterWrite false 2 m (dpSelectWord s (addr.extractLsb' 4 4)) s))))

/-- `dp_abort`: one write of the ABORT register, request 0x81, with no bank step in front whatever is tracked; acknowledged OK it
clears the latch (R143, R148; D16; GK2, GK3). -/
def Obligations.DpAbortClearsFault : Prop :=
  ∀ (v : Word) (n : Nat) (rest : List Bool) (s : State),
    Consistent s → s.phase = .idle → n < Config.params.retryBound →
    s.swdioIn.queue = waitAnswers n ++ bitsOf (1 : BitVec 3) 3 ++ rest →
    ∃ t, exec (.dpAbort v) s = .next t ∧ t = endCommand (.ok .nothing, afterWrite false 0 n v s)
      ∧ t.fault = false ∧ t.req = 0x81 ∧ SameTracking s t

/-- `ap_read`: the bank step keyed by `(ap_select, bank)`, then one read with APnDP = 1, its word as it came (R145, R152; D19,
D20; GK2, GK4). -/
def Obligations.ApReadReads : Prop :=
  ∀ (apsel addr : Byte) (m n : Nat) (v : Word) (par : Bool) (rest : List Bool) (s : State),
    Consistent s → s.phase = .idle → addr.extractLsb' 0 2 = 0 → m < Config.params.retryBound → n < Config.params.retryBound →
    (s.selValid = true → s.selApsel = apsel → s.selApbank = addr.extractLsb' 4 4 →
      s.swdioIn.queue = waitAnswers n ++ readAnswers v par ++ rest →
      exec (.apRead apsel addr) s
        = .next (endCommand (readOutcome v par, afterRead true (addr.extractLsb' 2 2) n v par s)))
    ∧ (¬(s.selValid = true ∧ s.selApsel = apsel ∧ s.selApbank = addr.extractLsb' 4 4) →
      s.swdioIn.queue = waitAnswers m ++ bitsOf (1 : BitVec 3) 3 ++ (waitAnswers n ++ readAnswers v par ++ rest) →
      exec (.apRead apsel addr) s = .next (endCommand (readOutcome v par,
        afterRead true (addr.extractLsb' 2 2) n v par
          (afterWrite false 2 m (apSelectWord s apsel (addr.extractLsb' 4 4)) s))))

/-- `ap_write`: the bank step keyed by `(ap_select, bank)`, then one write with APnDP = 1 (R145, R153; D19; GK2, GK4). -/
def Obligations.ApWriteWrites : Prop :=
  ∀ (apsel addr : Byte) (m n : Nat) (v : Word) (rest : List Bool) (s : State),
    Consistent s → s.phase = .idle → addr.extractLsb' 0 2 = 0 → m < Config.params.retryBound → n < Config.params.retryBound →
    (s.selValid = true → s.selApsel = apsel → s.selApbank = addr.extractLsb' 4 4 →
      s.swdioIn.queue = waitAnswers n ++ bitsOf (1 : BitVec 3) 3 ++ rest →
      exec (.apWrite apsel addr v) s
        = .next (endCommand (.ok .nothing, afterWrite true (addr.extractLsb' 2 2) n v s)))
    ∧ (¬(s.selValid = true ∧ s.selApsel = apsel ∧ s.selApbank = addr.extractLsb' 4 4) →
      s.swdioIn.queue
        = waitAnswers m ++ bitsOf (1 : BitVec 3) 3 ++ (waitAnswers n ++ bitsOf (1 : BitVec 3) 3 ++ rest) →
      exec (.apWrite apsel addr v) s = .next (endCommand (.ok .nothing,
        afterWrite true (addr.extractLsb' 2 2) n v
          (afterWrite false 2 m (apSelectWord s apsel (addr.extractLsb' 4 4)) s))))

/-- `dp_read`, `dp_write`, `ap_read`, `ap_write` and `dp_abort` end with the first access that is not acknowledged OK, after
`n` WAITs, with FAULT, an invalid acknowledge, or WAIT to the bound, and with its outcome and effect: a SELECT write that
ends so (the second access is not sent and the tracking is dropped), the one access where the bank is tracked or there is no
bank step, and the access after a SELECT write acknowledged OK (R144, R150, R171, R172, R174, R178; D13, D16, D19;
GK2, GK3, GK4). -/
def Obligations.FailedAccessEndsCommand : Prop :=
  ∀ (apsel addr : Byte) (v : Word) (m n : Nat) (ack : BitVec 3) (rest : List Bool) (s : State),
    Consistent s → s.phase = .idle → addr.extractLsb' 0 2 = 0 → m < Config.params.retryBound →
    n < Config.params.retryBound → ack ≠ 1 → (ack = 2 → n + 1 = Config.params.retryBound) →
    -- the SELECT write is not acknowledged OK
    (s.swdioIn.queue = waitAnswers n ++ bitsOf ack 3 ++ rest →
      ∀ i : Instr,
        ((i = .dpRead addr ∨ (i = .dpWrite addr v ∧ addr.extractLsb' 2 2 ≠ 2)) ∧ ¬DpTracked s addr
          ∨ (i = .apRead apsel addr ∨ i = .apWrite apsel addr v) ∧ ¬ApTracked s apsel addr) →
        exec i s = .next (endCommand (noDataOutcome ack, afterNoData false false 2 n ack s)))
    -- the only access is not acknowledged OK
    ∧ (s.swdioIn.queue = waitAnswers n ++ bitsOf ack 3 ++ rest →
      (DpTracked s addr → exec (.dpRead addr) s
          = .next (endCommand (noDataOutcome ack, afterNoData false true (addr.extractLsb' 2 2) n ack s)))
      ∧ (addr.extractLsb' 2 2 = 2 ∨ DpTracked s addr → exec (.dpWrite addr v) s
          = .next (endCommand (noDataOutcome ack, afterNoData false false (addr.extractLsb' 2 2) n ack s)))
      ∧ (ApTracked s apsel addr →
          exec (.apRead apsel addr) s
            = .next (endCommand (noDataOutcome ack, afterNoData true true (addr.extractLsb' 2 2) n ack s))
          ∧ exec (.apWrite apsel addr v) s
            = .next (endCommand (noDataOutcome ack, afterNoData true false (addr.extractLsb' 2 2) n ack s)))
      ∧ exec (.dpAbort v) s = .next (endCommand (noDataOutcome ack, afterNoData false false 0 n ack s)))
    -- the SELECT write is acknowledged OK and the access after it is not
    ∧ (s.swdioIn.queue = waitAnswers m ++ bitsOf (1 : BitVec 3) 3 ++ (waitAnswers n ++ bitsOf ack 3 ++ rest) →
      (¬DpTracked s addr →
        exec (.dpRead addr) s
          = .next (endCommand (noDataOutcome ack, afterNoData false true (addr.extractLsb' 2 2) n ack
              (afterWrite false 2 m (dpSelectWord s (addr.extractLsb' 4 4)) s)))
        ∧ (addr.extractLsb' 2 2 ≠ 2 → exec (.dpWrite addr v) s
          = .next (endCommand (noDataOutcome ack, afterNoData false false (addr.extractLsb' 2 2) n ack
              (afterWrite false 2 m (dpSelectWord s (addr.extractLsb' 4 4)) s)))))
      ∧ (¬ApTracked s apsel addr →
        exec (.apRead apsel addr) s
          = .next (endCommand (noDataOutcome ack, afterNoData true true (addr.extractLsb' 2 2) n ack
              (afterWrite false 2 m (apSelectWord s apsel (addr.extractLsb' 4 4)) s)))
        ∧ exec (.apWrite apsel addr v) s
          = .next (endCommand (noDataOutcome ack, afterNoData true false (addr.extractLsb' 2 2) n ack
              (afterWrite false 2 m (apSelectWord s apsel (addr.extractLsb' 4 4)) s)))))

/-- `dp_attach`: the latch, the tracking and both registers are cleared, DP address 0x0 is read with no bank step into
`idcode`, and, when `DP_V2`, TARGETID (bank 2, address 0x4) is read into `targetid` after its SELECT write (R154; D22;
GK3, GK4, GK16). -/
def Obligations.DpAttachLoads : Prop :=
  ∀ (n : Nat) (v : Word) (rest : List Bool) (s : State), Consistent s → s.phase = .idle → n < Config.params.retryBound →
    s.swdioIn.queue = waitAnswers n ++ readAnswers v (parity v) ++ rest →
    (Config.params.open5.dpV2 = false →
      exec .dpAttach s = .next (endCommand (.ok .nothing,
        { afterRead false 0 n v (parity v)
            { s with fault := false, selValid := false, idcode := none, targetid := none } with
          idcode := some v })))
    ∧ (Config.params.open5.dpV2 = true → ∀ (m k : Nat) (w : Word) (rest' : List Bool),
      m < Config.params.retryBound → k < Config.params.retryBound →
      rest = waitAnswers m ++ bitsOf (1 : BitVec 3) 3 ++ (waitAnswers k ++ readAnswers w (parity w) ++ rest') →
      exec .dpAttach s = .next (endCommand (.ok .nothing,
        { afterRead false 1 k w (parity w)
            (afterWrite false 2 m 0x00000002
              { afterRead false 0 n v (parity v)
                  { s with fault := false, selValid := false, idcode := none, targetid := none } with
                idcode := some v }) with
          targetid := some w })))

/-- `dp_attach` that does not end Ok returns the outcome of the access that failed, and a register not yet loaded holds no
value: the first read not acknowledged OK, or with a wrong parity bit (neither register is loaded); and, when `DP_V2`, the
SELECT write not acknowledged OK, the read of TARGETID not acknowledged OK, or with a wrong parity bit (`idcode` is loaded
and `targetid` is not) (R154, R150, R173, R205 (f); D22, D25; GK2, GK3, GK4, GK16). -/
def Obligations.FailedAttachLeavesNoValue : Prop :=
  ∀ (n : Nat) (rest : List Bool) (s : State), Consistent s → s.phase = .idle → n < Config.params.retryBound →
    let s0 := { s with fault := false, selValid := false, idcode := none, targetid := none }
    (∀ ack : BitVec 3, ack ≠ 1 → (ack = 2 → n + 1 = Config.params.retryBound) →
      s.swdioIn.queue = waitAnswers n ++ bitsOf ack 3 ++ rest →
      exec .dpAttach s = .next (endCommand (noDataOutcome ack, afterNoData false true 0 n ack s0)))
    ∧ (∀ (v : Word) (par : Bool), par ≠ parity v → s.swdioIn.queue = waitAnswers n ++ readAnswers v par ++ rest →
      exec .dpAttach s = .next (endCommand (.parityError v, afterRead false 0 n v par s0)))
    ∧ (Config.params.open5.dpV2 = true → ∀ (v : Word) (m : Nat),
      m < Config.params.retryBound → s.swdioIn.queue = waitAnswers n ++ readAnswers v (parity v) ++ rest →
      let s1 := { afterRead false 0 n v (parity v) s0 with idcode := some v }
      (∀ (ack : BitVec 3) (rest' : List Bool), ack ≠ 1 → (ack = 2 → m + 1 = Config.params.retryBound) →
        rest = waitAnswers m ++ bitsOf ack 3 ++ rest' →
        exec .dpAttach s = .next (endCommand (noDataOutcome ack, afterNoData false false 2 m ack s1)))
      ∧ ∀ k : Nat, k < Config.params.retryBound →
        (∀ (ack : BitVec 3) (rest' : List Bool), ack ≠ 1 → (ack = 2 → k + 1 = Config.params.retryBound) →
          rest = waitAnswers m ++ bitsOf (1 : BitVec 3) 3 ++ (waitAnswers k ++ bitsOf ack 3 ++ rest') →
          exec .dpAttach s = .next (endCommand (noDataOutcome ack,
            afterNoData false true 1 k ack (afterWrite false 2 m 0x00000002 s1))))
        ∧ ∀ (w : Word) (par : Bool) (rest' : List Bool), par ≠ parity w →
          rest = waitAnswers m ++ bitsOf (1 : BitVec 3) 3 ++ (waitAnswers k ++ readAnswers w par ++ rest') →
          exec .dpAttach s = .next (endCommand (.parityError w,
            afterRead false 1 k w par (afterWrite false 2 m 0x00000002 s1))))

/-- `fault_read`, `idcode_read`, `targetid_read` return their register and change nothing; the last two end
Refused(NoValue) while it holds no value (R155, R21, R22; D16, D22). -/
def Obligations.ConnectionRegistersRead : Prop :=
  ∀ s : State, s.phase = .idle →
    exec .faultRead s = .next { s with outcomes := s.outcomes ++ [.ok (.bit s.fault)] }
    ∧ (∀ v, s.idcode = some v → exec .idcodeRead s = .next { s with outcomes := s.outcomes ++ [.ok (.word v)] })
    ∧ (s.idcode = none → exec .idcodeRead s = .next { s with outcomes := s.outcomes ++ [.refused .noValue] })
    ∧ (∀ v, s.targetid = some v → exec .targetidRead s = .next { s with outcomes := s.outcomes ++ [.ok (.word v)] })
    ∧ (s.targetid = none → exec .targetidRead s = .next { s with outcomes := s.outcomes ++ [.refused .noValue] })
end

