-- ==== Sys2Proof/Laws/Bits.lean ====
section
/-! SUPPORT. Bits of words and lists of bits: packing what was unpacked gives it back. -/

namespace Sys2Proof.Machine
open Sys2Proof.Safety

@[simp] theorem bitsOf_length {w : Nat} (v : BitVec w) (n : Nat) : (bitsOf v n).length = n := by simp [bitsOf]

theorem bitsOf_succ {w : Nat} (v : BitVec w) (n : Nat) : bitsOf v (n + 1) = bitsOf v n ++ [v.getLsbD n] := by
  simp [bitsOf, List.range_succ]

theorem natOfBits_lt (bs : List Bool) : natOfBits bs < 2 ^ bs.length := by
  induction bs with
  | nil => simp [natOfBits]
  | cons b bs ih => cases b <;> simp [natOfBits, pow_succ] <;> omega

theorem natOfBits_testBit (bs : List Bool) (i : Nat) : (natOfBits bs).testBit i = bs.getD i false := by
  induction bs generalizing i with
  | nil => simp [natOfBits]
  | cons b bs ih =>
    cases i with
    | zero => cases b <;> simp [natOfBits, Nat.testBit_zero]
    | succ i =>
      have h : (b.toNat + 2 * natOfBits bs) / 2 = natOfBits bs := by cases b <;> simp; omega
      rw [natOfBits, Nat.testBit_succ, h, ih]
      simp

/-- Bit `i` of a packed word is the `i`-th bit. -/
theorem getLsbD_wordOfBits (w : Nat) (bs : List Bool) (i : Nat) :
    (wordOfBits w bs).getLsbD i = (decide (i < w) && bs.getD i false) := by
  simp [wordOfBits, BitVec.getLsbD_ofNat, natOfBits_testBit]

/-- Packing all bits of a word gives the word. -/
@[simp] theorem wordOfBits_bitsOf {w : Nat} (v : BitVec w) : wordOfBits w (bitsOf v w) = v := by
  apply BitVec.eq_of_getLsbD_eq
  intro i hi
  rw [getLsbD_wordOfBits]
  simp [bitsOf, hi]

/-- Taking apart what was packed gives the bits. -/
theorem bitsOf_wordOfBits {w : Nat} {bs : List Bool} {n : Nat} (hn : bs.length = n) (hw : n ≤ w) :
    bitsOf (wordOfBits w bs) n = bs := by
  subst hn
  apply List.ext_getElem (by simp)
  intro i h1 h2
  have : i < w := by omega
  have h := getLsbD_wordOfBits w bs i
  simp only [this, decide_true, Bool.true_and, List.getD_eq_getElem _ _ h2] at h
  simp [bitsOf, ← h]

theorem bitsOf_zeroExtend {w u n : Nat} (v : BitVec w) (h : n ≤ u) : bitsOf (v.zeroExtend u) n = bitsOf v n := by
  apply List.map_congr_left
  intro i hi
  have := List.mem_range.mp hi
  simp
  intro hv
  omega

/-- The request byte is the one of R62's table. -/
theorem makeRequest_params (apndp rnw : Bool) (a : BitVec 2) :
    makeRequest Config.params apndp rnw a = requestByte apndp rnw a := by
  revert a; revert apndp rnw; decide

theorem requestByte_rnw (apndp rnw : Bool) (a : BitVec 2) : reqRnw (requestByte apndp rnw a) = rnw := by
  revert a; revert apndp rnw; decide

theorem requestByte_apndp (apndp rnw : Bool) (a : BitVec 2) : reqApndp (requestByte apndp rnw a) = apndp := by
  revert a; revert apndp rnw; decide

theorem requestByte_slot (apndp rnw : Bool) (a : BitVec 2) : reqSlot (requestByte apndp rnw a) = a := by
  revert a; revert apndp rnw; decide

/-- The park bit is the last on the wire (R61). -/
theorem bitsOf_requestByte_last (apndp rnw : Bool) (a : BitVec 2) (x : Bool) :
    (bitsOf (requestByte apndp rnw a) 8).getLastD x = true := by
  revert x a; revert apndp rnw; decide

theorem decodeAck_params (ack : BitVec 3) :
    decodeAck Config.params ack = if ack = 1 then .ok else if ack = 2 then .wait else if ack = 4 then .fault else .invalid :=
  rfl

/-! ### Lists of bits -/

theorem getLastD_bitsOf {w : Nat} (v : BitVec w) (n : Nat) (x : Bool) :
    (bitsOf v n).getLastD x = if n = 0 then x else v.getLsbD (n - 1) := by
  cases n with
  | zero => simp [bitsOf]
  | succ n => simp [bitsOf_succ]

theorem isEmpty_bitsOf {w : Nat} (v : BitVec w) (n : Nat) : (bitsOf v n).isEmpty = decide (n = 0) := by
  cases n with
  | zero => simp [bitsOf]
  | succ n => simp [bitsOf_succ]

theorem map_true_bitsOf {w : Nat} (v : BitVec w) (n : Nat) :
    ((bitsOf v n).map fun _ => true) = List.replicate n true := by
  simp [bitsOf, List.map_const']

/-! ### Host bit buffers -/

@[simp] theorem bufferBits_length (buf : List Byte) (n : Nat) : (bufferBits buf n).length = n := by simp [bufferBits]

theorem bufferBits_ne_nil (buf : List Byte) {n : Nat} (h : 1 ≤ n) : bufferBits buf n ≠ [] := by
  intro h'
  have := congrArg List.length h'
  simp at this
  omega

theorem bufferBits_getLastD (buf : List Byte) {n : Nat} (x : Bool) (h : 1 ≤ n) :
    (bufferBits buf n).getLastD x = bufferBit buf (n - 1) := by
  obtain ⟨m, rfl⟩ : ∃ m, n = m + 1 := ⟨n - 1, by omega⟩
  simp [bufferBits, List.range_succ]

@[simp] theorem packBytes_length (k : Nat) (bs : List Bool) : (packBytes k bs).length = k := by
  induction k generalizing bs <;> simp [packBytes, *]

/-- Bit `i` of the packed bytes is the `i`-th bit, 0 past the last (R43, R82). -/
theorem bufferBit_packBytes (k : Nat) (bs : List Bool) (i : Nat) (h : i < 8 * k) :
    bufferBit (packBytes k bs) i = bs.getD i false := by
  induction k generalizing bs i with
  | zero => omega
  | succ k ih =>
    by_cases h8 : i < 8
    · have h0 : i / 8 = 0 := by omega
      have h1 : i % 8 = i := by omega
      simp only [bufferBit, packBytes, h0, h1, List.getD_cons_zero, getLsbD_wordOfBits]
      simp [h8]
    · have h0 : i / 8 = (i - 8) / 8 + 1 := by omega
      have h1 : i % 8 = (i - 8) % 8 := by omega
      have h2 := ih (bs.drop 8) (i - 8) (by omega)
      simp only [bufferBit, packBytes] at h2 ⊢
      rw [h0, h1, List.getD_cons_succ, h2]
      simp [List.getElem?_drop]
      congr 2; omega

/-! ### Operands -/

theorem fullAddr_low (apndp : Bool) (addr : Byte) : (fullAddr apndp addr).extractLsb' 0 2 = addr.extractLsb' 0 2 := by
  revert addr; cases apndp <;> decide

theorem fullAddr_slot (apndp : Bool) (addr : Byte) : (fullAddr apndp addr).extractLsb' 2 2 = addr.extractLsb' 2 2 := by
  revert addr; cases apndp <;> decide

theorem fullAddr_apndp (apndp : Bool) (addr : Byte) : (fullAddr apndp addr).getLsbD 8 = apndp := by
  revert addr; cases apndp <;> decide

theorem slotAddr_low (a : BitVec 2) : (slotAddr a).extractLsb' 0 2 = 0 := by revert a; decide

theorem slotAddr_slot (a : BitVec 2) : (slotAddr a).extractLsb' 2 2 = a := by revert a; decide

theorem slotAddr_apndp (a : BitVec 2) : (slotAddr a).getLsbD 8 = false := by revert a; decide

/-- The two writings of the SELECT value agree (R145). -/
theorem selectValue_eq_selectWord (apsel : BitVec 8) (apbank dpbank : BitVec 4) :
    selectValue apsel apbank dpbank = selectWord apsel apbank dpbank := by
  unfold selectValue selectWord
  apply BitVec.eq_of_getLsbD_eq
  intro i hi
  simp only [BitVec.getLsbD_cast, BitVec.getLsbD_append, BitVec.getLsbD_or, BitVec.getLsbD_shiftLeft]
  interval_cases i <;> simp

/-! ### Bytes of a word -/

@[simp] theorem wordOfBytes_bytes (v : Word) :
    wordOfBytes (v.extractLsb' 0 8) (v.extractLsb' 8 8) (v.extractLsb' 16 8) (v.extractLsb' 24 8) = v := by
  unfold wordOfBytes
  apply BitVec.eq_of_getLsbD_eq
  intro i hi
  simp only [BitVec.getLsbD_append, BitVec.getLsbD_extractLsb']
  interval_cases i <;> rfl

@[simp] theorem bytesOfWord_wordOfBytes (b0 b1 b2 b3 : Byte) : bytesOfWord (wordOfBytes b0 b1 b2 b3) = [b0, b1, b2, b3] := by
  have hbit : ∀ x y : Byte, (∀ i < 8, x.getLsbD i = y.getLsbD i) → x = y := fun _ _ h => BitVec.eq_of_getLsbD_eq h
  have h0 : (wordOfBytes b0 b1 b2 b3).extractLsb' 0 8 = b0 := by
    apply hbit; intro i hi
    simp only [wordOfBytes, BitVec.getLsbD_extractLsb', BitVec.getLsbD_append]; interval_cases i <;> rfl
  have h1 : (wordOfBytes b0 b1 b2 b3).extractLsb' 8 8 = b1 := by
    apply hbit; intro i hi
    simp only [wordOfBytes, BitVec.getLsbD_extractLsb', BitVec.getLsbD_append]; interval_cases i <;> rfl
  have h2 : (wordOfBytes b0 b1 b2 b3).extractLsb' 16 8 = b2 := by
    apply hbit; intro i hi
    simp only [wordOfBytes, BitVec.getLsbD_extractLsb', BitVec.getLsbD_append]; interval_cases i <;> rfl
  have h3 : (wordOfBytes b0 b1 b2 b3).extractLsb' 24 8 = b3 := by
    apply hbit; intro i hi
    simp only [wordOfBytes, BitVec.getLsbD_extractLsb', BitVec.getLsbD_append]; interval_cases i <;> rfl
  rw [bytesOfWord, h0, h1, h2, h3]

end Sys2Proof.Machine
end

