-- ==== Sys2Proof/Laws/State.lean ====
section
/-! SUPPORT. One lemma per field per update, so that no later proof unfolds a record update. -/

namespace Sys2Proof.Machine

@[simp] theorem emit_tck (e : PinEvent) (s : State) : (emit e s).tck = s.tck := rfl
@[simp] theorem emit_tms (e : PinEvent) (s : State) : (emit e s).tms = s.tms := rfl
@[simp] theorem emit_tdi (e : PinEvent) (s : State) : (emit e s).tdi = s.tdi := rfl
@[simp] theorem emit_trst (e : PinEvent) (s : State) : (emit e s).trst = s.trst := rfl
@[simp] theorem emit_swclk (e : PinEvent) (s : State) : (emit e s).swclk = s.swclk := rfl
@[simp] theorem emit_swdioOut (e : PinEvent) (s : State) : (emit e s).swdioOut = s.swdioOut := rfl
@[simp] theorem emit_swdioOe (e : PinEvent) (s : State) : (emit e s).swdioOe = s.swdioOe := rfl
@[simp] theorem emit_swdDir (e : PinEvent) (s : State) : (emit e s).swdDir = s.swdDir := rfl
@[simp] theorem emit_delayCount (e : PinEvent) (s : State) : (emit e s).delayCount = s.delayCount := rfl
@[simp] theorem emit_req (e : PinEvent) (s : State) : (emit e s).req = s.req := rfl
@[simp] theorem emit_ack (e : PinEvent) (s : State) : (emit e s).ack = s.ack := rfl
@[simp] theorem emit_wdata (e : PinEvent) (s : State) : (emit e s).wdata = s.wdata := rfl
@[simp] theorem emit_rdata (e : PinEvent) (s : State) : (emit e s).rdata = s.rdata := rfl
@[simp] theorem emit_pok (e : PinEvent) (s : State) : (emit e s).pok = s.pok := rfl
@[simp] theorem emit_phase (e : PinEvent) (s : State) : (emit e s).phase = s.phase := rfl
@[simp] theorem emit_tries (e : PinEvent) (s : State) : (emit e s).tries = s.tries := rfl
@[simp] theorem emit_fault (e : PinEvent) (s : State) : (emit e s).fault = s.fault := rfl
@[simp] theorem emit_idcode (e : PinEvent) (s : State) : (emit e s).idcode = s.idcode := rfl
@[simp] theorem emit_targetid (e : PinEvent) (s : State) : (emit e s).targetid = s.targetid := rfl
@[simp] theorem emit_selValid (e : PinEvent) (s : State) : (emit e s).selValid = s.selValid := rfl
@[simp] theorem emit_selApsel (e : PinEvent) (s : State) : (emit e s).selApsel = s.selApsel := rfl
@[simp] theorem emit_selApbank (e : PinEvent) (s : State) : (emit e s).selApbank = s.selApbank := rfl
@[simp] theorem emit_selDpbank (e : PinEvent) (s : State) : (emit e s).selDpbank = s.selDpbank := rfl
@[simp] theorem emit_tapShadow (e : PinEvent) (s : State) : (emit e s).tapShadow = s.tapShadow := rfl
@[simp] theorem emit_tdo (e : PinEvent) (s : State) : (emit e s).tdo = s.tdo := rfl
@[simp] theorem emit_swdioIn (e : PinEvent) (s : State) : (emit e s).swdioIn = s.swdioIn := rfl
@[simp] theorem emit_port (e : PinEvent) (s : State) : (emit e s).port = s.port := rfl
@[simp] theorem emit_trace (e : PinEvent) (s : State) : (emit e s).trace = s.trace ++ [e] := rfl
@[simp] theorem emit_outcomes (e : PinEvent) (s : State) : (emit e s).outcomes = s.outcomes := rfl

@[simp] theorem delay_tck (s : State) : (delay s).tck = s.tck := rfl
@[simp] theorem delay_tms (s : State) : (delay s).tms = s.tms := rfl
@[simp] theorem delay_tdi (s : State) : (delay s).tdi = s.tdi := rfl
@[simp] theorem delay_trst (s : State) : (delay s).trst = s.trst := rfl
@[simp] theorem delay_swclk (s : State) : (delay s).swclk = s.swclk := rfl
@[simp] theorem delay_swdioOut (s : State) : (delay s).swdioOut = s.swdioOut := rfl
@[simp] theorem delay_swdioOe (s : State) : (delay s).swdioOe = s.swdioOe := rfl
@[simp] theorem delay_swdDir (s : State) : (delay s).swdDir = s.swdDir := rfl
@[simp] theorem delay_delayCount (s : State) : (delay s).delayCount = s.delayCount := rfl
@[simp] theorem delay_req (s : State) : (delay s).req = s.req := rfl
@[simp] theorem delay_ack (s : State) : (delay s).ack = s.ack := rfl
@[simp] theorem delay_wdata (s : State) : (delay s).wdata = s.wdata := rfl
@[simp] theorem delay_rdata (s : State) : (delay s).rdata = s.rdata := rfl
@[simp] theorem delay_pok (s : State) : (delay s).pok = s.pok := rfl
@[simp] theorem delay_phase (s : State) : (delay s).phase = s.phase := rfl
@[simp] theorem delay_tries (s : State) : (delay s).tries = s.tries := rfl
@[simp] theorem delay_fault (s : State) : (delay s).fault = s.fault := rfl
@[simp] theorem delay_idcode (s : State) : (delay s).idcode = s.idcode := rfl
@[simp] theorem delay_targetid (s : State) : (delay s).targetid = s.targetid := rfl
@[simp] theorem delay_selValid (s : State) : (delay s).selValid = s.selValid := rfl
@[simp] theorem delay_selApsel (s : State) : (delay s).selApsel = s.selApsel := rfl
@[simp] theorem delay_selApbank (s : State) : (delay s).selApbank = s.selApbank := rfl
@[simp] theorem delay_selDpbank (s : State) : (delay s).selDpbank = s.selDpbank := rfl
@[simp] theorem delay_tapShadow (s : State) : (delay s).tapShadow = s.tapShadow := rfl
@[simp] theorem delay_tdo (s : State) : (delay s).tdo = s.tdo := rfl
@[simp] theorem delay_swdioIn (s : State) : (delay s).swdioIn = s.swdioIn := rfl
@[simp] theorem delay_port (s : State) : (delay s).port = s.port := rfl
@[simp] theorem delay_trace (s : State) : (delay s).trace = s.trace ++ delayEvents s.delayCount := rfl
@[simp] theorem delay_outcomes (s : State) : (delay s).outcomes = s.outcomes := rfl

@[simp] theorem setMode_tck (dir : Dir) (s : State) : (setMode dir s).tck = s.tck := rfl
@[simp] theorem setMode_tms (dir : Dir) (s : State) : (setMode dir s).tms = s.tms := rfl
@[simp] theorem setMode_tdi (dir : Dir) (s : State) : (setMode dir s).tdi = s.tdi := rfl
@[simp] theorem setMode_trst (dir : Dir) (s : State) : (setMode dir s).trst = s.trst := rfl
@[simp] theorem setMode_swclk (dir : Dir) (s : State) : (setMode dir s).swclk = s.swclk := rfl
@[simp] theorem setMode_swdioOut (dir : Dir) (s : State) : (setMode dir s).swdioOut = s.swdioOut := rfl
@[simp] theorem setMode_swdioOe (dir : Dir) (s : State) : (setMode dir s).swdioOe = decide (dir = .drive) := rfl
@[simp] theorem setMode_swdDir (dir : Dir) (s : State) : (setMode dir s).swdDir = s.swdDir := rfl
@[simp] theorem setMode_delayCount (dir : Dir) (s : State) : (setMode dir s).delayCount = s.delayCount := rfl
@[simp] theorem setMode_req (dir : Dir) (s : State) : (setMode dir s).req = s.req := rfl
@[simp] theorem setMode_ack (dir : Dir) (s : State) : (setMode dir s).ack = s.ack := rfl
@[simp] theorem setMode_wdata (dir : Dir) (s : State) : (setMode dir s).wdata = s.wdata := rfl
@[simp] theorem setMode_rdata (dir : Dir) (s : State) : (setMode dir s).rdata = s.rdata := rfl
@[simp] theorem setMode_pok (dir : Dir) (s : State) : (setMode dir s).pok = s.pok := rfl
@[simp] theorem setMode_phase (dir : Dir) (s : State) : (setMode dir s).phase = s.phase := rfl
@[simp] theorem setMode_tries (dir : Dir) (s : State) : (setMode dir s).tries = s.tries := rfl
@[simp] theorem setMode_fault (dir : Dir) (s : State) : (setMode dir s).fault = s.fault := rfl
@[simp] theorem setMode_idcode (dir : Dir) (s : State) : (setMode dir s).idcode = s.idcode := rfl
@[simp] theorem setMode_targetid (dir : Dir) (s : State) : (setMode dir s).targetid = s.targetid := rfl
@[simp] theorem setMode_selValid (dir : Dir) (s : State) : (setMode dir s).selValid = s.selValid := rfl
@[simp] theorem setMode_selApsel (dir : Dir) (s : State) : (setMode dir s).selApsel = s.selApsel := rfl
@[simp] theorem setMode_selApbank (dir : Dir) (s : State) : (setMode dir s).selApbank = s.selApbank := rfl
@[simp] theorem setMode_selDpbank (dir : Dir) (s : State) : (setMode dir s).selDpbank = s.selDpbank := rfl
@[simp] theorem setMode_tapShadow (dir : Dir) (s : State) : (setMode dir s).tapShadow = s.tapShadow := rfl
@[simp] theorem setMode_tdo (dir : Dir) (s : State) : (setMode dir s).tdo = s.tdo := rfl
@[simp] theorem setMode_swdioIn (dir : Dir) (s : State) : (setMode dir s).swdioIn = s.swdioIn := rfl
@[simp] theorem setMode_port (dir : Dir) (s : State) : (setMode dir s).port = s.port := rfl
@[simp] theorem setMode_trace (dir : Dir) (s : State) : (setMode dir s).trace = s.trace ++ [.mode dir] := rfl
@[simp] theorem setMode_outcomes (dir : Dir) (s : State) : (setMode dir s).outcomes = s.outcomes := rfl

@[simp] theorem presentSwdio_tck (bs : List Bool) (s : State) : (presentSwdio bs s).tck = s.tck := rfl
@[simp] theorem presentSwdio_tms (bs : List Bool) (s : State) : (presentSwdio bs s).tms = s.tms := rfl
@[simp] theorem presentSwdio_tdi (bs : List Bool) (s : State) : (presentSwdio bs s).tdi = s.tdi := rfl
@[simp] theorem presentSwdio_trst (bs : List Bool) (s : State) : (presentSwdio bs s).trst = s.trst := rfl
@[simp] theorem presentSwdio_swclk (bs : List Bool) (s : State) : (presentSwdio bs s).swclk = s.swclk := rfl
@[simp] theorem presentSwdio_swdioOut (bs : List Bool) (s : State) : (presentSwdio bs s).swdioOut = s.swdioOut := rfl
@[simp] theorem presentSwdio_swdioOe (bs : List Bool) (s : State) : (presentSwdio bs s).swdioOe = s.swdioOe := rfl
@[simp] theorem presentSwdio_swdDir (bs : List Bool) (s : State) : (presentSwdio bs s).swdDir = s.swdDir := rfl
@[simp] theorem presentSwdio_delayCount (bs : List Bool) (s : State) : (presentSwdio bs s).delayCount = s.delayCount := rfl
@[simp] theorem presentSwdio_req (bs : List Bool) (s : State) : (presentSwdio bs s).req = s.req := rfl
@[simp] theorem presentSwdio_ack (bs : List Bool) (s : State) : (presentSwdio bs s).ack = s.ack := rfl
@[simp] theorem presentSwdio_wdata (bs : List Bool) (s : State) : (presentSwdio bs s).wdata = s.wdata := rfl
@[simp] theorem presentSwdio_rdata (bs : List Bool) (s : State) : (presentSwdio bs s).rdata = s.rdata := rfl
@[simp] theorem presentSwdio_pok (bs : List Bool) (s : State) : (presentSwdio bs s).pok = s.pok := rfl
@[simp] theorem presentSwdio_phase (bs : List Bool) (s : State) : (presentSwdio bs s).phase = s.phase := rfl
@[simp] theorem presentSwdio_tries (bs : List Bool) (s : State) : (presentSwdio bs s).tries = s.tries := rfl
@[simp] theorem presentSwdio_fault (bs : List Bool) (s : State) : (presentSwdio bs s).fault = s.fault := rfl
@[simp] theorem presentSwdio_idcode (bs : List Bool) (s : State) : (presentSwdio bs s).idcode = s.idcode := rfl
@[simp] theorem presentSwdio_targetid (bs : List Bool) (s : State) : (presentSwdio bs s).targetid = s.targetid := rfl
@[simp] theorem presentSwdio_selValid (bs : List Bool) (s : State) : (presentSwdio bs s).selValid = s.selValid := rfl
@[simp] theorem presentSwdio_selApsel (bs : List Bool) (s : State) : (presentSwdio bs s).selApsel = s.selApsel := rfl
@[simp] theorem presentSwdio_selApbank (bs : List Bool) (s : State) : (presentSwdio bs s).selApbank = s.selApbank := rfl
@[simp] theorem presentSwdio_selDpbank (bs : List Bool) (s : State) : (presentSwdio bs s).selDpbank = s.selDpbank := rfl
@[simp] theorem presentSwdio_tapShadow (bs : List Bool) (s : State) : (presentSwdio bs s).tapShadow = s.tapShadow := rfl
@[simp] theorem presentSwdio_tdo (bs : List Bool) (s : State) : (presentSwdio bs s).tdo = s.tdo := rfl
@[simp] theorem presentSwdio_swdioIn (bs : List Bool) (s : State) : (presentSwdio bs s).swdioIn = ⟨bs ++ s.swdioIn.queue, s.swdioIn.drawn⟩ := rfl
@[simp] theorem presentSwdio_port (bs : List Bool) (s : State) : (presentSwdio bs s).port = s.port := rfl
@[simp] theorem presentSwdio_trace (bs : List Bool) (s : State) : (presentSwdio bs s).trace = s.trace := rfl
@[simp] theorem presentSwdio_outcomes (bs : List Bool) (s : State) : (presentSwdio bs s).outcomes = s.outcomes := rfl

@[simp] theorem endCommand_tck (r : CmdOutcome) (s : State) : (endCommand (r, s)).tck = s.tck := rfl
@[simp] theorem endCommand_tms (r : CmdOutcome) (s : State) : (endCommand (r, s)).tms = s.tms := rfl
@[simp] theorem endCommand_tdi (r : CmdOutcome) (s : State) : (endCommand (r, s)).tdi = s.tdi := rfl
@[simp] theorem endCommand_trst (r : CmdOutcome) (s : State) : (endCommand (r, s)).trst = s.trst := rfl
@[simp] theorem endCommand_swclk (r : CmdOutcome) (s : State) : (endCommand (r, s)).swclk = s.swclk := rfl
@[simp] theorem endCommand_swdioOut (r : CmdOutcome) (s : State) : (endCommand (r, s)).swdioOut = s.swdioOut := rfl
@[simp] theorem endCommand_swdioOe (r : CmdOutcome) (s : State) : (endCommand (r, s)).swdioOe = s.swdioOe := rfl
@[simp] theorem endCommand_swdDir (r : CmdOutcome) (s : State) : (endCommand (r, s)).swdDir = s.swdDir := rfl
@[simp] theorem endCommand_delayCount (r : CmdOutcome) (s : State) : (endCommand (r, s)).delayCount = s.delayCount := rfl
@[simp] theorem endCommand_req (r : CmdOutcome) (s : State) : (endCommand (r, s)).req = s.req := rfl
@[simp] theorem endCommand_ack (r : CmdOutcome) (s : State) : (endCommand (r, s)).ack = s.ack := rfl
@[simp] theorem endCommand_wdata (r : CmdOutcome) (s : State) : (endCommand (r, s)).wdata = s.wdata := rfl
@[simp] theorem endCommand_rdata (r : CmdOutcome) (s : State) : (endCommand (r, s)).rdata = s.rdata := rfl
@[simp] theorem endCommand_pok (r : CmdOutcome) (s : State) : (endCommand (r, s)).pok = s.pok := rfl
@[simp] theorem endCommand_phase (r : CmdOutcome) (s : State) : (endCommand (r, s)).phase = s.phase := rfl
@[simp] theorem endCommand_tries (r : CmdOutcome) (s : State) : (endCommand (r, s)).tries = s.tries := rfl
@[simp] theorem endCommand_fault (r : CmdOutcome) (s : State) : (endCommand (r, s)).fault = s.fault := rfl
@[simp] theorem endCommand_idcode (r : CmdOutcome) (s : State) : (endCommand (r, s)).idcode = s.idcode := rfl
@[simp] theorem endCommand_targetid (r : CmdOutcome) (s : State) : (endCommand (r, s)).targetid = s.targetid := rfl
@[simp] theorem endCommand_selValid (r : CmdOutcome) (s : State) : (endCommand (r, s)).selValid = s.selValid := rfl
@[simp] theorem endCommand_selApsel (r : CmdOutcome) (s : State) : (endCommand (r, s)).selApsel = s.selApsel := rfl
@[simp] theorem endCommand_selApbank (r : CmdOutcome) (s : State) : (endCommand (r, s)).selApbank = s.selApbank := rfl
@[simp] theorem endCommand_selDpbank (r : CmdOutcome) (s : State) : (endCommand (r, s)).selDpbank = s.selDpbank := rfl
@[simp] theorem endCommand_tapShadow (r : CmdOutcome) (s : State) : (endCommand (r, s)).tapShadow = s.tapShadow := rfl
@[simp] theorem endCommand_tdo (r : CmdOutcome) (s : State) : (endCommand (r, s)).tdo = s.tdo := rfl
@[simp] theorem endCommand_swdioIn (r : CmdOutcome) (s : State) : (endCommand (r, s)).swdioIn = s.swdioIn := rfl
@[simp] theorem endCommand_port (r : CmdOutcome) (s : State) : (endCommand (r, s)).port = s.port := rfl
@[simp] theorem endCommand_trace (r : CmdOutcome) (s : State) : (endCommand (r, s)).trace = s.trace := rfl
@[simp] theorem endCommand_outcomes (r : CmdOutcome) (s : State) : (endCommand (r, s)).outcomes = s.outcomes ++ [r] := rfl

@[simp] theorem leaveReq_tck (s : State) : (leaveReq s).tck = s.tck := rfl
@[simp] theorem leaveReq_tms (s : State) : (leaveReq s).tms = s.tms := rfl
@[simp] theorem leaveReq_tdi (s : State) : (leaveReq s).tdi = s.tdi := rfl
@[simp] theorem leaveReq_trst (s : State) : (leaveReq s).trst = s.trst := rfl
@[simp] theorem leaveReq_swclk (s : State) : (leaveReq s).swclk = s.swclk := rfl
@[simp] theorem leaveReq_swdioOut (s : State) : (leaveReq s).swdioOut = s.swdioOut := rfl
@[simp] theorem leaveReq_swdioOe (s : State) : (leaveReq s).swdioOe = s.swdioOe := rfl
@[simp] theorem leaveReq_swdDir (s : State) : (leaveReq s).swdDir = s.swdDir := rfl
@[simp] theorem leaveReq_delayCount (s : State) : (leaveReq s).delayCount = s.delayCount := rfl
@[simp] theorem leaveReq_req (s : State) : (leaveReq s).req = s.req := rfl
@[simp] theorem leaveReq_ack (s : State) : (leaveReq s).ack = s.ack := rfl
@[simp] theorem leaveReq_wdata (s : State) : (leaveReq s).wdata = s.wdata := rfl
@[simp] theorem leaveReq_rdata (s : State) : (leaveReq s).rdata = s.rdata := rfl
@[simp] theorem leaveReq_pok (s : State) : (leaveReq s).pok = s.pok := rfl
@[simp] theorem leaveReq_phase (s : State) : (leaveReq s).phase = .ack := rfl
@[simp] theorem leaveReq_tries (s : State) : (leaveReq s).tries = s.tries + 1 := rfl
@[simp] theorem leaveReq_fault (s : State) : (leaveReq s).fault = s.fault := rfl
@[simp] theorem leaveReq_idcode (s : State) : (leaveReq s).idcode = s.idcode := rfl
@[simp] theorem leaveReq_targetid (s : State) : (leaveReq s).targetid = s.targetid := rfl
@[simp] theorem leaveReq_selValid (s : State) : (leaveReq s).selValid = s.selValid := rfl
@[simp] theorem leaveReq_selApsel (s : State) : (leaveReq s).selApsel = s.selApsel := rfl
@[simp] theorem leaveReq_selApbank (s : State) : (leaveReq s).selApbank = s.selApbank := rfl
@[simp] theorem leaveReq_selDpbank (s : State) : (leaveReq s).selDpbank = s.selDpbank := rfl
@[simp] theorem leaveReq_tapShadow (s : State) : (leaveReq s).tapShadow = s.tapShadow := rfl
@[simp] theorem leaveReq_tdo (s : State) : (leaveReq s).tdo = s.tdo := rfl
@[simp] theorem leaveReq_swdioIn (s : State) : (leaveReq s).swdioIn = s.swdioIn := rfl
@[simp] theorem leaveReq_port (s : State) : (leaveReq s).port = s.port := rfl
@[simp] theorem leaveReq_trace (s : State) : (leaveReq s).trace = s.trace := rfl
@[simp] theorem leaveReq_outcomes (s : State) : (leaveReq s).outcomes = s.outcomes := rfl

@[simp] theorem leaveData_tck (s : State) : (leaveData s).tck = s.tck := rfl
@[simp] theorem leaveData_tms (s : State) : (leaveData s).tms = s.tms := rfl
@[simp] theorem leaveData_tdi (s : State) : (leaveData s).tdi = s.tdi := rfl
@[simp] theorem leaveData_trst (s : State) : (leaveData s).trst = s.trst := rfl
@[simp] theorem leaveData_swclk (s : State) : (leaveData s).swclk = s.swclk := rfl
@[simp] theorem leaveData_swdioOut (s : State) : (leaveData s).swdioOut = s.swdioOut := rfl
@[simp] theorem leaveData_swdioOe (s : State) : (leaveData s).swdioOe = s.swdioOe := rfl
@[simp] theorem leaveData_swdDir (s : State) : (leaveData s).swdDir = s.swdDir := rfl
@[simp] theorem leaveData_delayCount (s : State) : (leaveData s).delayCount = s.delayCount := rfl
@[simp] theorem leaveData_req (s : State) : (leaveData s).req = s.req := rfl
@[simp] theorem leaveData_ack (s : State) : (leaveData s).ack = s.ack := rfl
@[simp] theorem leaveData_wdata (s : State) : (leaveData s).wdata = s.wdata := rfl
@[simp] theorem leaveData_rdata (s : State) : (leaveData s).rdata = s.rdata := rfl
@[simp] theorem leaveData_pok (s : State) : (leaveData s).pok = s.pok := rfl
@[simp] theorem leaveData_phase (s : State) : (leaveData s).phase = .done := rfl
@[simp] theorem leaveData_tries (s : State) : (leaveData s).tries = s.tries := rfl
@[simp] theorem leaveData_fault (s : State) : (leaveData s).fault = s.fault := rfl
@[simp] theorem leaveData_idcode (s : State) : (leaveData s).idcode = s.idcode := rfl
@[simp] theorem leaveData_targetid (s : State) : (leaveData s).targetid = s.targetid := rfl
@[simp] theorem leaveData_selValid (s : State) : (leaveData s).selValid = s.selValid := rfl
@[simp] theorem leaveData_selApsel (s : State) : (leaveData s).selApsel = s.selApsel := rfl
@[simp] theorem leaveData_selApbank (s : State) : (leaveData s).selApbank = s.selApbank := rfl
@[simp] theorem leaveData_selDpbank (s : State) : (leaveData s).selDpbank = s.selDpbank := rfl
@[simp] theorem leaveData_tapShadow (s : State) : (leaveData s).tapShadow = s.tapShadow := rfl
@[simp] theorem leaveData_tdo (s : State) : (leaveData s).tdo = s.tdo := rfl
@[simp] theorem leaveData_swdioIn (s : State) : (leaveData s).swdioIn = s.swdioIn := rfl
@[simp] theorem leaveData_port (s : State) : (leaveData s).port = s.port := rfl
@[simp] theorem leaveData_trace (s : State) : (leaveData s).trace = s.trace := rfl
@[simp] theorem leaveData_outcomes (s : State) : (leaveData s).outcomes = s.outcomes := rfl

@[simp] theorem writePin_tck_tck (b : Bool) (s : State) : (writePin .tck b s).tck = b := rfl
@[simp] theorem writePin_tck_tms (b : Bool) (s : State) : (writePin .tck b s).tms = s.tms := rfl
@[simp] theorem writePin_tck_tdi (b : Bool) (s : State) : (writePin .tck b s).tdi = s.tdi := rfl
@[simp] theorem writePin_tck_trst (b : Bool) (s : State) : (writePin .tck b s).trst = s.trst := rfl
@[simp] theorem writePin_tck_swclk (b : Bool) (s : State) : (writePin .tck b s).swclk = s.swclk := rfl
@[simp] theorem writePin_tck_swdioOut (b : Bool) (s : State) : (writePin .tck b s).swdioOut = s.swdioOut := rfl
@[simp] theorem writePin_tck_swdioOe (b : Bool) (s : State) : (writePin .tck b s).swdioOe = s.swdioOe := rfl
@[simp] theorem writePin_tck_swdDir (b : Bool) (s : State) : (writePin .tck b s).swdDir = s.swdDir := rfl
@[simp] theorem writePin_tck_delayCount (b : Bool) (s : State) : (writePin .tck b s).delayCount = s.delayCount := rfl
@[simp] theorem writePin_tck_req (b : Bool) (s : State) : (writePin .tck b s).req = s.req := rfl
@[simp] theorem writePin_tck_ack (b : Bool) (s : State) : (writePin .tck b s).ack = s.ack := rfl
@[simp] theorem writePin_tck_wdata (b : Bool) (s : State) : (writePin .tck b s).wdata = s.wdata := rfl
@[simp] theorem writePin_tck_rdata (b : Bool) (s : State) : (writePin .tck b s).rdata = s.rdata := rfl
@[simp] theorem writePin_tck_pok (b : Bool) (s : State) : (writePin .tck b s).pok = s.pok := rfl
@[simp] theorem writePin_tck_phase (b : Bool) (s : State) : (writePin .tck b s).phase = s.phase := rfl
@[simp] theorem writePin_tck_tries (b : Bool) (s : State) : (writePin .tck b s).tries = s.tries := rfl
@[simp] theorem writePin_tck_fault (b : Bool) (s : State) : (writePin .tck b s).fault = s.fault := rfl
@[simp] theorem writePin_tck_idcode (b : Bool) (s : State) : (writePin .tck b s).idcode = s.idcode := rfl
@[simp] theorem writePin_tck_targetid (b : Bool) (s : State) : (writePin .tck b s).targetid = s.targetid := rfl
@[simp] theorem writePin_tck_selValid (b : Bool) (s : State) : (writePin .tck b s).selValid = s.selValid := rfl
@[simp] theorem writePin_tck_selApsel (b : Bool) (s : State) : (writePin .tck b s).selApsel = s.selApsel := rfl
@[simp] theorem writePin_tck_selApbank (b : Bool) (s : State) : (writePin .tck b s).selApbank = s.selApbank := rfl
@[simp] theorem writePin_tck_selDpbank (b : Bool) (s : State) : (writePin .tck b s).selDpbank = s.selDpbank := rfl
@[simp] theorem writePin_tck_tapShadow (b : Bool) (s : State) : (writePin .tck b s).tapShadow = if b then tapNext s.tapShadow s.tms else s.tapShadow := rfl
@[simp] theorem writePin_tck_tdo (b : Bool) (s : State) : (writePin .tck b s).tdo = s.tdo := rfl
@[simp] theorem writePin_tck_swdioIn (b : Bool) (s : State) : (writePin .tck b s).swdioIn = s.swdioIn := rfl
@[simp] theorem writePin_tck_port (b : Bool) (s : State) : (writePin .tck b s).port = s.port := rfl
@[simp] theorem writePin_tck_trace (b : Bool) (s : State) : (writePin .tck b s).trace = s.trace ++ [.write .tck b] := rfl
@[simp] theorem writePin_tck_outcomes (b : Bool) (s : State) : (writePin .tck b s).outcomes = s.outcomes := rfl

@[simp] theorem writePin_tms_tck (b : Bool) (s : State) : (writePin .tms b s).tck = s.tck := rfl
@[simp] theorem writePin_tms_tms (b : Bool) (s : State) : (writePin .tms b s).tms = b := rfl
@[simp] theorem writePin_tms_tdi (b : Bool) (s : State) : (writePin .tms b s).tdi = s.tdi := rfl
@[simp] theorem writePin_tms_trst (b : Bool) (s : State) : (writePin .tms b s).trst = s.trst := rfl
@[simp] theorem writePin_tms_swclk (b : Bool) (s : State) : (writePin .tms b s).swclk = s.swclk := rfl
@[simp] theorem writePin_tms_swdioOut (b : Bool) (s : State) : (writePin .tms b s).swdioOut = s.swdioOut := rfl
@[simp] theorem writePin_tms_swdioOe (b : Bool) (s : State) : (writePin .tms b s).swdioOe = s.swdioOe := rfl
@[simp] theorem writePin_tms_swdDir (b : Bool) (s : State) : (writePin .tms b s).swdDir = s.swdDir := rfl
@[simp] theorem writePin_tms_delayCount (b : Bool) (s : State) : (writePin .tms b s).delayCount = s.delayCount := rfl
@[simp] theorem writePin_tms_req (b : Bool) (s : State) : (writePin .tms b s).req = s.req := rfl
@[simp] theorem writePin_tms_ack (b : Bool) (s : State) : (writePin .tms b s).ack = s.ack := rfl
@[simp] theorem writePin_tms_wdata (b : Bool) (s : State) : (writePin .tms b s).wdata = s.wdata := rfl
@[simp] theorem writePin_tms_rdata (b : Bool) (s : State) : (writePin .tms b s).rdata = s.rdata := rfl
@[simp] theorem writePin_tms_pok (b : Bool) (s : State) : (writePin .tms b s).pok = s.pok := rfl
@[simp] theorem writePin_tms_phase (b : Bool) (s : State) : (writePin .tms b s).phase = s.phase := rfl
@[simp] theorem writePin_tms_tries (b : Bool) (s : State) : (writePin .tms b s).tries = s.tries := rfl
@[simp] theorem writePin_tms_fault (b : Bool) (s : State) : (writePin .tms b s).fault = s.fault := rfl
@[simp] theorem writePin_tms_idcode (b : Bool) (s : State) : (writePin .tms b s).idcode = s.idcode := rfl
@[simp] theorem writePin_tms_targetid (b : Bool) (s : State) : (writePin .tms b s).targetid = s.targetid := rfl
@[simp] theorem writePin_tms_selValid (b : Bool) (s : State) : (writePin .tms b s).selValid = s.selValid := rfl
@[simp] theorem writePin_tms_selApsel (b : Bool) (s : State) : (writePin .tms b s).selApsel = s.selApsel := rfl
@[simp] theorem writePin_tms_selApbank (b : Bool) (s : State) : (writePin .tms b s).selApbank = s.selApbank := rfl
@[simp] theorem writePin_tms_selDpbank (b : Bool) (s : State) : (writePin .tms b s).selDpbank = s.selDpbank := rfl
@[simp] theorem writePin_tms_tapShadow (b : Bool) (s : State) : (writePin .tms b s).tapShadow = s.tapShadow := rfl
@[simp] theorem writePin_tms_tdo (b : Bool) (s : State) : (writePin .tms b s).tdo = s.tdo := rfl
@[simp] theorem writePin_tms_swdioIn (b : Bool) (s : State) : (writePin .tms b s).swdioIn = s.swdioIn := rfl
@[simp] theorem writePin_tms_port (b : Bool) (s : State) : (writePin .tms b s).port = s.port := rfl
@[simp] theorem writePin_tms_trace (b : Bool) (s : State) : (writePin .tms b s).trace = s.trace ++ [.write .tms b] := rfl
@[simp] theorem writePin_tms_outcomes (b : Bool) (s : State) : (writePin .tms b s).outcomes = s.outcomes := rfl

@[simp] theorem writePin_tdi_tck (b : Bool) (s : State) : (writePin .tdi b s).tck = s.tck := rfl
@[simp] theorem writePin_tdi_tms (b : Bool) (s : State) : (writePin .tdi b s).tms = s.tms := rfl
@[simp] theorem writePin_tdi_tdi (b : Bool) (s : State) : (writePin .tdi b s).tdi = b := rfl
@[simp] theorem writePin_tdi_trst (b : Bool) (s : State) : (writePin .tdi b s).trst = s.trst := rfl
@[simp] theorem writePin_tdi_swclk (b : Bool) (s : State) : (writePin .tdi b s).swclk = s.swclk := rfl
@[simp] theorem writePin_tdi_swdioOut (b : Bool) (s : State) : (writePin .tdi b s).swdioOut = s.swdioOut := rfl
@[simp] theorem writePin_tdi_swdioOe (b : Bool) (s : State) : (writePin .tdi b s).swdioOe = s.swdioOe := rfl
@[simp] theorem writePin_tdi_swdDir (b : Bool) (s : State) : (writePin .tdi b s).swdDir = s.swdDir := rfl
@[simp] theorem writePin_tdi_delayCount (b : Bool) (s : State) : (writePin .tdi b s).delayCount = s.delayCount := rfl
@[simp] theorem writePin_tdi_req (b : Bool) (s : State) : (writePin .tdi b s).req = s.req := rfl
@[simp] theorem writePin_tdi_ack (b : Bool) (s : State) : (writePin .tdi b s).ack = s.ack := rfl
@[simp] theorem writePin_tdi_wdata (b : Bool) (s : State) : (writePin .tdi b s).wdata = s.wdata := rfl
@[simp] theorem writePin_tdi_rdata (b : Bool) (s : State) : (writePin .tdi b s).rdata = s.rdata := rfl
@[simp] theorem writePin_tdi_pok (b : Bool) (s : State) : (writePin .tdi b s).pok = s.pok := rfl
@[simp] theorem writePin_tdi_phase (b : Bool) (s : State) : (writePin .tdi b s).phase = s.phase := rfl
@[simp] theorem writePin_tdi_tries (b : Bool) (s : State) : (writePin .tdi b s).tries = s.tries := rfl
@[simp] theorem writePin_tdi_fault (b : Bool) (s : State) : (writePin .tdi b s).fault = s.fault := rfl
@[simp] theorem writePin_tdi_idcode (b : Bool) (s : State) : (writePin .tdi b s).idcode = s.idcode := rfl
@[simp] theorem writePin_tdi_targetid (b : Bool) (s : State) : (writePin .tdi b s).targetid = s.targetid := rfl
@[simp] theorem writePin_tdi_selValid (b : Bool) (s : State) : (writePin .tdi b s).selValid = s.selValid := rfl
@[simp] theorem writePin_tdi_selApsel (b : Bool) (s : State) : (writePin .tdi b s).selApsel = s.selApsel := rfl
@[simp] theorem writePin_tdi_selApbank (b : Bool) (s : State) : (writePin .tdi b s).selApbank = s.selApbank := rfl
@[simp] theorem writePin_tdi_selDpbank (b : Bool) (s : State) : (writePin .tdi b s).selDpbank = s.selDpbank := rfl
@[simp] theorem writePin_tdi_tapShadow (b : Bool) (s : State) : (writePin .tdi b s).tapShadow = s.tapShadow := rfl
@[simp] theorem writePin_tdi_tdo (b : Bool) (s : State) : (writePin .tdi b s).tdo = s.tdo := rfl
@[simp] theorem writePin_tdi_swdioIn (b : Bool) (s : State) : (writePin .tdi b s).swdioIn = s.swdioIn := rfl
@[simp] theorem writePin_tdi_port (b : Bool) (s : State) : (writePin .tdi b s).port = s.port := rfl
@[simp] theorem writePin_tdi_trace (b : Bool) (s : State) : (writePin .tdi b s).trace = s.trace ++ [.write .tdi b] := rfl
@[simp] theorem writePin_tdi_outcomes (b : Bool) (s : State) : (writePin .tdi b s).outcomes = s.outcomes := rfl

@[simp] theorem writePin_trst_tck (b : Bool) (s : State) : (writePin .trst b s).tck = s.tck := rfl
@[simp] theorem writePin_trst_tms (b : Bool) (s : State) : (writePin .trst b s).tms = s.tms := rfl
@[simp] theorem writePin_trst_tdi (b : Bool) (s : State) : (writePin .trst b s).tdi = s.tdi := rfl
@[simp] theorem writePin_trst_trst (b : Bool) (s : State) : (writePin .trst b s).trst = b := rfl
@[simp] theorem writePin_trst_swclk (b : Bool) (s : State) : (writePin .trst b s).swclk = s.swclk := rfl
@[simp] theorem writePin_trst_swdioOut (b : Bool) (s : State) : (writePin .trst b s).swdioOut = s.swdioOut := rfl
@[simp] theorem writePin_trst_swdioOe (b : Bool) (s : State) : (writePin .trst b s).swdioOe = s.swdioOe := rfl
@[simp] theorem writePin_trst_swdDir (b : Bool) (s : State) : (writePin .trst b s).swdDir = s.swdDir := rfl
@[simp] theorem writePin_trst_delayCount (b : Bool) (s : State) : (writePin .trst b s).delayCount = s.delayCount := rfl
@[simp] theorem writePin_trst_req (b : Bool) (s : State) : (writePin .trst b s).req = s.req := rfl
@[simp] theorem writePin_trst_ack (b : Bool) (s : State) : (writePin .trst b s).ack = s.ack := rfl
@[simp] theorem writePin_trst_wdata (b : Bool) (s : State) : (writePin .trst b s).wdata = s.wdata := rfl
@[simp] theorem writePin_trst_rdata (b : Bool) (s : State) : (writePin .trst b s).rdata = s.rdata := rfl
@[simp] theorem writePin_trst_pok (b : Bool) (s : State) : (writePin .trst b s).pok = s.pok := rfl
@[simp] theorem writePin_trst_phase (b : Bool) (s : State) : (writePin .trst b s).phase = s.phase := rfl
@[simp] theorem writePin_trst_tries (b : Bool) (s : State) : (writePin .trst b s).tries = s.tries := rfl
@[simp] theorem writePin_trst_fault (b : Bool) (s : State) : (writePin .trst b s).fault = s.fault := rfl
@[simp] theorem writePin_trst_idcode (b : Bool) (s : State) : (writePin .trst b s).idcode = s.idcode := rfl
@[simp] theorem writePin_trst_targetid (b : Bool) (s : State) : (writePin .trst b s).targetid = s.targetid := rfl
@[simp] theorem writePin_trst_selValid (b : Bool) (s : State) : (writePin .trst b s).selValid = s.selValid := rfl
@[simp] theorem writePin_trst_selApsel (b : Bool) (s : State) : (writePin .trst b s).selApsel = s.selApsel := rfl
@[simp] theorem writePin_trst_selApbank (b : Bool) (s : State) : (writePin .trst b s).selApbank = s.selApbank := rfl
@[simp] theorem writePin_trst_selDpbank (b : Bool) (s : State) : (writePin .trst b s).selDpbank = s.selDpbank := rfl
@[simp] theorem writePin_trst_tapShadow (b : Bool) (s : State) : (writePin .trst b s).tapShadow = s.tapShadow := rfl
@[simp] theorem writePin_trst_tdo (b : Bool) (s : State) : (writePin .trst b s).tdo = s.tdo := rfl
@[simp] theorem writePin_trst_swdioIn (b : Bool) (s : State) : (writePin .trst b s).swdioIn = s.swdioIn := rfl
@[simp] theorem writePin_trst_port (b : Bool) (s : State) : (writePin .trst b s).port = s.port := rfl
@[simp] theorem writePin_trst_trace (b : Bool) (s : State) : (writePin .trst b s).trace = s.trace ++ [.write .trst b] := rfl
@[simp] theorem writePin_trst_outcomes (b : Bool) (s : State) : (writePin .trst b s).outcomes = s.outcomes := rfl

@[simp] theorem writePin_swclk_tck (b : Bool) (s : State) : (writePin .swclk b s).tck = s.tck := rfl
@[simp] theorem writePin_swclk_tms (b : Bool) (s : State) : (writePin .swclk b s).tms = s.tms := rfl
@[simp] theorem writePin_swclk_tdi (b : Bool) (s : State) : (writePin .swclk b s).tdi = s.tdi := rfl
@[simp] theorem writePin_swclk_trst (b : Bool) (s : State) : (writePin .swclk b s).trst = s.trst := rfl
@[simp] theorem writePin_swclk_swclk (b : Bool) (s : State) : (writePin .swclk b s).swclk = b := rfl
@[simp] theorem writePin_swclk_swdioOut (b : Bool) (s : State) : (writePin .swclk b s).swdioOut = s.swdioOut := rfl
@[simp] theorem writePin_swclk_swdioOe (b : Bool) (s : State) : (writePin .swclk b s).swdioOe = s.swdioOe := rfl
@[simp] theorem writePin_swclk_swdDir (b : Bool) (s : State) : (writePin .swclk b s).swdDir = s.swdDir := rfl
@[simp] theorem writePin_swclk_delayCount (b : Bool) (s : State) : (writePin .swclk b s).delayCount = s.delayCount := rfl
@[simp] theorem writePin_swclk_req (b : Bool) (s : State) : (writePin .swclk b s).req = s.req := rfl
@[simp] theorem writePin_swclk_ack (b : Bool) (s : State) : (writePin .swclk b s).ack = s.ack := rfl
@[simp] theorem writePin_swclk_wdata (b : Bool) (s : State) : (writePin .swclk b s).wdata = s.wdata := rfl
@[simp] theorem writePin_swclk_rdata (b : Bool) (s : State) : (writePin .swclk b s).rdata = s.rdata := rfl
@[simp] theorem writePin_swclk_pok (b : Bool) (s : State) : (writePin .swclk b s).pok = s.pok := rfl
@[simp] theorem writePin_swclk_phase (b : Bool) (s : State) : (writePin .swclk b s).phase = s.phase := rfl
@[simp] theorem writePin_swclk_tries (b : Bool) (s : State) : (writePin .swclk b s).tries = s.tries := rfl
@[simp] theorem writePin_swclk_fault (b : Bool) (s : State) : (writePin .swclk b s).fault = s.fault := rfl
@[simp] theorem writePin_swclk_idcode (b : Bool) (s : State) : (writePin .swclk b s).idcode = s.idcode := rfl
@[simp] theorem writePin_swclk_targetid (b : Bool) (s : State) : (writePin .swclk b s).targetid = s.targetid := rfl
@[simp] theorem writePin_swclk_selValid (b : Bool) (s : State) : (writePin .swclk b s).selValid = s.selValid := rfl
@[simp] theorem writePin_swclk_selApsel (b : Bool) (s : State) : (writePin .swclk b s).selApsel = s.selApsel := rfl
@[simp] theorem writePin_swclk_selApbank (b : Bool) (s : State) : (writePin .swclk b s).selApbank = s.selApbank := rfl
@[simp] theorem writePin_swclk_selDpbank (b : Bool) (s : State) : (writePin .swclk b s).selDpbank = s.selDpbank := rfl
@[simp] theorem writePin_swclk_tapShadow (b : Bool) (s : State) : (writePin .swclk b s).tapShadow = s.tapShadow := rfl
@[simp] theorem writePin_swclk_tdo (b : Bool) (s : State) : (writePin .swclk b s).tdo = s.tdo := rfl
@[simp] theorem writePin_swclk_swdioIn (b : Bool) (s : State) : (writePin .swclk b s).swdioIn = s.swdioIn := rfl
@[simp] theorem writePin_swclk_port (b : Bool) (s : State) : (writePin .swclk b s).port = s.port := rfl
@[simp] theorem writePin_swclk_trace (b : Bool) (s : State) : (writePin .swclk b s).trace = s.trace ++ [.write .swclk b] := rfl
@[simp] theorem writePin_swclk_outcomes (b : Bool) (s : State) : (writePin .swclk b s).outcomes = s.outcomes := rfl

@[simp] theorem writePin_swdioOut_tck (b : Bool) (s : State) : (writePin .swdioOut b s).tck = s.tck := rfl
@[simp] theorem writePin_swdioOut_tms (b : Bool) (s : State) : (writePin .swdioOut b s).tms = s.tms := rfl
@[simp] theorem writePin_swdioOut_tdi (b : Bool) (s : State) : (writePin .swdioOut b s).tdi = s.tdi := rfl
@[simp] theorem writePin_swdioOut_trst (b : Bool) (s : State) : (writePin .swdioOut b s).trst = s.trst := rfl
@[simp] theorem writePin_swdioOut_swclk (b : Bool) (s : State) : (writePin .swdioOut b s).swclk = s.swclk := rfl
@[simp] theorem writePin_swdioOut_swdioOut (b : Bool) (s : State) : (writePin .swdioOut b s).swdioOut = b := rfl
@[simp] theorem writePin_swdioOut_swdioOe (b : Bool) (s : State) : (writePin .swdioOut b s).swdioOe = s.swdioOe := rfl
@[simp] theorem writePin_swdioOut_swdDir (b : Bool) (s : State) : (writePin .swdioOut b s).swdDir = s.swdDir := rfl
@[simp] theorem writePin_swdioOut_delayCount (b : Bool) (s : State) : (writePin .swdioOut b s).delayCount = s.delayCount := rfl
@[simp] theorem writePin_swdioOut_req (b : Bool) (s : State) : (writePin .swdioOut b s).req = s.req := rfl
@[simp] theorem writePin_swdioOut_ack (b : Bool) (s : State) : (writePin .swdioOut b s).ack = s.ack := rfl
@[simp] theorem writePin_swdioOut_wdata (b : Bool) (s : State) : (writePin .swdioOut b s).wdata = s.wdata := rfl
@[simp] theorem writePin_swdioOut_rdata (b : Bool) (s : State) : (writePin .swdioOut b s).rdata = s.rdata := rfl
@[simp] theorem writePin_swdioOut_pok (b : Bool) (s : State) : (writePin .swdioOut b s).pok = s.pok := rfl
@[simp] theorem writePin_swdioOut_phase (b : Bool) (s : State) : (writePin .swdioOut b s).phase = s.phase := rfl
@[simp] theorem writePin_swdioOut_tries (b : Bool) (s : State) : (writePin .swdioOut b s).tries = s.tries := rfl
@[simp] theorem writePin_swdioOut_fault (b : Bool) (s : State) : (writePin .swdioOut b s).fault = s.fault := rfl
@[simp] theorem writePin_swdioOut_idcode (b : Bool) (s : State) : (writePin .swdioOut b s).idcode = s.idcode := rfl
@[simp] theorem writePin_swdioOut_targetid (b : Bool) (s : State) : (writePin .swdioOut b s).targetid = s.targetid := rfl
@[simp] theorem writePin_swdioOut_selValid (b : Bool) (s : State) : (writePin .swdioOut b s).selValid = s.selValid := rfl
@[simp] theorem writePin_swdioOut_selApsel (b : Bool) (s : State) : (writePin .swdioOut b s).selApsel = s.selApsel := rfl
@[simp] theorem writePin_swdioOut_selApbank (b : Bool) (s : State) : (writePin .swdioOut b s).selApbank = s.selApbank := rfl
@[simp] theorem writePin_swdioOut_selDpbank (b : Bool) (s : State) : (writePin .swdioOut b s).selDpbank = s.selDpbank := rfl
@[simp] theorem writePin_swdioOut_tapShadow (b : Bool) (s : State) : (writePin .swdioOut b s).tapShadow = s.tapShadow := rfl
@[simp] theorem writePin_swdioOut_tdo (b : Bool) (s : State) : (writePin .swdioOut b s).tdo = s.tdo := rfl
@[simp] theorem writePin_swdioOut_swdioIn (b : Bool) (s : State) : (writePin .swdioOut b s).swdioIn = s.swdioIn := rfl
@[simp] theorem writePin_swdioOut_port (b : Bool) (s : State) : (writePin .swdioOut b s).port = s.port := rfl
@[simp] theorem writePin_swdioOut_trace (b : Bool) (s : State) : (writePin .swdioOut b s).trace = s.trace ++ [.write .swdioOut b] := rfl
@[simp] theorem writePin_swdioOut_outcomes (b : Bool) (s : State) : (writePin .swdioOut b s).outcomes = s.outcomes := rfl

@[simp] theorem samplePin_tdo_level (s : State) : (samplePin .tdo s).1 = s.tdo.level Config.freeTdoLevel := rfl
@[simp] theorem samplePin_tdo_tck (s : State) : ((samplePin .tdo s).2).tck = s.tck := rfl
@[simp] theorem samplePin_tdo_tms (s : State) : ((samplePin .tdo s).2).tms = s.tms := rfl
@[simp] theorem samplePin_tdo_tdi (s : State) : ((samplePin .tdo s).2).tdi = s.tdi := rfl
@[simp] theorem samplePin_tdo_trst (s : State) : ((samplePin .tdo s).2).trst = s.trst := rfl
@[simp] theorem samplePin_tdo_swclk (s : State) : ((samplePin .tdo s).2).swclk = s.swclk := rfl
@[simp] theorem samplePin_tdo_swdioOut (s : State) : ((samplePin .tdo s).2).swdioOut = s.swdioOut := rfl
@[simp] theorem samplePin_tdo_swdioOe (s : State) : ((samplePin .tdo s).2).swdioOe = s.swdioOe := rfl
@[simp] theorem samplePin_tdo_swdDir (s : State) : ((samplePin .tdo s).2).swdDir = s.swdDir := rfl
@[simp] theorem samplePin_tdo_delayCount (s : State) : ((samplePin .tdo s).2).delayCount = s.delayCount := rfl
@[simp] theorem samplePin_tdo_req (s : State) : ((samplePin .tdo s).2).req = s.req := rfl
@[simp] theorem samplePin_tdo_ack (s : State) : ((samplePin .tdo s).2).ack = s.ack := rfl
@[simp] theorem samplePin_tdo_wdata (s : State) : ((samplePin .tdo s).2).wdata = s.wdata := rfl
@[simp] theorem samplePin_tdo_rdata (s : State) : ((samplePin .tdo s).2).rdata = s.rdata := rfl
@[simp] theorem samplePin_tdo_pok (s : State) : ((samplePin .tdo s).2).pok = s.pok := rfl
@[simp] theorem samplePin_tdo_phase (s : State) : ((samplePin .tdo s).2).phase = s.phase := rfl
@[simp] theorem samplePin_tdo_tries (s : State) : ((samplePin .tdo s).2).tries = s.tries := rfl
@[simp] theorem samplePin_tdo_fault (s : State) : ((samplePin .tdo s).2).fault = s.fault := rfl
@[simp] theorem samplePin_tdo_idcode (s : State) : ((samplePin .tdo s).2).idcode = s.idcode := rfl
@[simp] theorem samplePin_tdo_targetid (s : State) : ((samplePin .tdo s).2).targetid = s.targetid := rfl
@[simp] theorem samplePin_tdo_selValid (s : State) : ((samplePin .tdo s).2).selValid = s.selValid := rfl
@[simp] theorem samplePin_tdo_selApsel (s : State) : ((samplePin .tdo s).2).selApsel = s.selApsel := rfl
@[simp] theorem samplePin_tdo_selApbank (s : State) : ((samplePin .tdo s).2).selApbank = s.selApbank := rfl
@[simp] theorem samplePin_tdo_selDpbank (s : State) : ((samplePin .tdo s).2).selDpbank = s.selDpbank := rfl
@[simp] theorem samplePin_tdo_tapShadow (s : State) : ((samplePin .tdo s).2).tapShadow = s.tapShadow := rfl
@[simp] theorem samplePin_tdo_tdo (s : State) : ((samplePin .tdo s).2).tdo = s.tdo.next := rfl
@[simp] theorem samplePin_tdo_swdioIn (s : State) : ((samplePin .tdo s).2).swdioIn = s.swdioIn := rfl
@[simp] theorem samplePin_tdo_port (s : State) : ((samplePin .tdo s).2).port = s.port := rfl
@[simp] theorem samplePin_tdo_trace (s : State) : ((samplePin .tdo s).2).trace = s.trace ++ [.sample .tdo (s.tdo.level Config.freeTdoLevel)] := rfl
@[simp] theorem samplePin_tdo_outcomes (s : State) : ((samplePin .tdo s).2).outcomes = s.outcomes := rfl

@[simp] theorem samplePin_swdioIn_level (s : State) : (samplePin .swdioIn s).1 = s.swdioIn.level Config.freeSwdioLevel := rfl
@[simp] theorem samplePin_swdioIn_tck (s : State) : ((samplePin .swdioIn s).2).tck = s.tck := rfl
@[simp] theorem samplePin_swdioIn_tms (s : State) : ((samplePin .swdioIn s).2).tms = s.tms := rfl
@[simp] theorem samplePin_swdioIn_tdi (s : State) : ((samplePin .swdioIn s).2).tdi = s.tdi := rfl
@[simp] theorem samplePin_swdioIn_trst (s : State) : ((samplePin .swdioIn s).2).trst = s.trst := rfl
@[simp] theorem samplePin_swdioIn_swclk (s : State) : ((samplePin .swdioIn s).2).swclk = s.swclk := rfl
@[simp] theorem samplePin_swdioIn_swdioOut (s : State) : ((samplePin .swdioIn s).2).swdioOut = s.swdioOut := rfl
@[simp] theorem samplePin_swdioIn_swdioOe (s : State) : ((samplePin .swdioIn s).2).swdioOe = s.swdioOe := rfl
@[simp] theorem samplePin_swdioIn_swdDir (s : State) : ((samplePin .swdioIn s).2).swdDir = s.swdDir := rfl
@[simp] theorem samplePin_swdioIn_delayCount (s : State) : ((samplePin .swdioIn s).2).delayCount = s.delayCount := rfl
@[simp] theorem samplePin_swdioIn_req (s : State) : ((samplePin .swdioIn s).2).req = s.req := rfl
@[simp] theorem samplePin_swdioIn_ack (s : State) : ((samplePin .swdioIn s).2).ack = s.ack := rfl
@[simp] theorem samplePin_swdioIn_wdata (s : State) : ((samplePin .swdioIn s).2).wdata = s.wdata := rfl
@[simp] theorem samplePin_swdioIn_rdata (s : State) : ((samplePin .swdioIn s).2).rdata = s.rdata := rfl
@[simp] theorem samplePin_swdioIn_pok (s : State) : ((samplePin .swdioIn s).2).pok = s.pok := rfl
@[simp] theorem samplePin_swdioIn_phase (s : State) : ((samplePin .swdioIn s).2).phase = s.phase := rfl
@[simp] theorem samplePin_swdioIn_tries (s : State) : ((samplePin .swdioIn s).2).tries = s.tries := rfl
@[simp] theorem samplePin_swdioIn_fault (s : State) : ((samplePin .swdioIn s).2).fault = s.fault := rfl
@[simp] theorem samplePin_swdioIn_idcode (s : State) : ((samplePin .swdioIn s).2).idcode = s.idcode := rfl
@[simp] theorem samplePin_swdioIn_targetid (s : State) : ((samplePin .swdioIn s).2).targetid = s.targetid := rfl
@[simp] theorem samplePin_swdioIn_selValid (s : State) : ((samplePin .swdioIn s).2).selValid = s.selValid := rfl
@[simp] theorem samplePin_swdioIn_selApsel (s : State) : ((samplePin .swdioIn s).2).selApsel = s.selApsel := rfl
@[simp] theorem samplePin_swdioIn_selApbank (s : State) : ((samplePin .swdioIn s).2).selApbank = s.selApbank := rfl
@[simp] theorem samplePin_swdioIn_selDpbank (s : State) : ((samplePin .swdioIn s).2).selDpbank = s.selDpbank := rfl
@[simp] theorem samplePin_swdioIn_tapShadow (s : State) : ((samplePin .swdioIn s).2).tapShadow = s.tapShadow := rfl
@[simp] theorem samplePin_swdioIn_tdo (s : State) : ((samplePin .swdioIn s).2).tdo = s.tdo := rfl
@[simp] theorem samplePin_swdioIn_swdioIn (s : State) : ((samplePin .swdioIn s).2).swdioIn = s.swdioIn.next := rfl
@[simp] theorem samplePin_swdioIn_port (s : State) : ((samplePin .swdioIn s).2).port = s.port := rfl
@[simp] theorem samplePin_swdioIn_trace (s : State) : ((samplePin .swdioIn s).2).trace = s.trace ++ [.sample .swdioIn (s.swdioIn.level Config.freeSwdioLevel)] := rfl
@[simp] theorem samplePin_swdioIn_outcomes (s : State) : ((samplePin .swdioIn s).2).outcomes = s.outcomes := rfl

end Sys2Proof.Machine
end

