-- ==== Sys2Proof/Laws/Ops.lean ====
section
/-! SUPPORT. One lemma per shared operation that says everything it does: the state it leaves, as one record update. -/

namespace Sys2Proof.Machine
open Sys2Proof.Safety

/-! ### Commands -/

/-- A command at an idle block runs to its end (R49, R206). -/
theorem runCommand_idle (body : State → CmdOutcome × State) {s : State} (h : s.phase = .idle) :
    runCommand body s = .next (endCommand (body s)) := if_pos h

/-- A command at a busy block has no step (R184 (a)). -/
theorem runCommand_busy (body : State → CmdOutcome × State) {s : State} (h : s.phase ≠ .idle) :
    runCommand body s = .fault .commandWhileBusy := if_neg h

/-- A command that answers a next state ran at an idle block. -/
theorem runCommand_next {body : State → CmdOutcome × State} {s t : State} (h : runCommand body s = .next t) :
    s.phase = .idle ∧ t = endCommand (body s) := by
  unfold runCommand at h
  split at h
  · exact ⟨by assumption, by injection h with h; exact h.symm⟩
  · cases h

/-! ### Inputs -/

@[simp] theorem InputPin.draw_length (free : Nat → Bool) (n : Nat) (p : InputPin) : (p.draw free n).1.length = n := by
  induction n generalizing p with
  | zero => rfl
  | succ n ih => simp [InputPin.draw, ih]

/-- Levels that are queued are what is drawn. -/
theorem InputPin.draw_queued (free : Nat → Bool) (bs rest : List Bool) (k : Nat) :
    InputPin.draw free bs.length ⟨bs ++ rest, k⟩ = (bs, ⟨rest, k⟩) := by
  induction bs with
  | nil => rfl
  | cons b bs ih => simp [InputPin.draw, InputPin.level, InputPin.next, ih]

theorem InputPin.draw_add (free : Nat → Bool) (m n : Nat) (p : InputPin) :
    p.draw free (m + n) = ((p.draw free m).1 ++ ((p.draw free m).2.draw free n).1, ((p.draw free m).2.draw free n).2) := by
  induction m generalizing p with
  | zero => simp [InputPin.draw]
  | succ m ih => simp [InputPin.draw, Nat.succ_add, ih]

theorem InputPin.draw_succ (free : Nat → Bool) (n : Nat) (p : InputPin) :
    p.draw free (n + 1) = ((p.draw free n).1 ++ [(p.draw free n).2.level free], (p.draw free n).2.next) := by
  rw [InputPin.draw_add]; rfl

/-- Presenting what was drawn, to the input left after it, draws the same again. -/
theorem InputPin.draw_present (free : Nat → Bool) (n : Nat) (p : InputPin) :
    InputPin.draw free n ⟨(p.draw free n).1 ++ (p.draw free n).2.queue, (p.draw free n).2.drawn⟩ = p.draw free n := by
  have h := InputPin.draw_queued free (p.draw free n).1 (p.draw free n).2.queue (p.draw free n).2.drawn
  rwa [InputPin.draw_length] at h

/-! ### JTAG -/

/-- What `jtag_next` does (R80). -/
theorem jtagNext_eq (tms tdi : Bool) (s : State) :
    jtagNext tms tdi s =
      (s.tdo.level Config.freeTdoLevel,
        { s with
          tms := tms, tdi := tdi, tck := false, tapShadow := tapNext s.tapShadow tms, tdo := s.tdo.next
          trace := s.trace ++ jtagCycle (delayEvents s.delayCount) tms tdi (s.tdo.level Config.freeTdoLevel) }) := by
  simp [jtagNext, writePin, emit, delay, samplePin, jtagCycle]

/-- What the TMS loop does (R81). -/
theorem clockTms_eq (bs : List Bool) (s : State) :
    clockTms bs s =
      { s with
        tms := bs.getLastD s.tms, tdi := if bs.isEmpty then s.tdi else true, tck := if bs.isEmpty then s.tck else false
        tapShadow := bs.foldl tapNext s.tapShadow, tdo := (s.tdo.draw Config.freeTdoLevel bs.length).2
        trace := s.trace ++ jtagCycles (delayEvents s.delayCount) bs (bs.map fun _ => true)
          (s.tdo.draw Config.freeTdoLevel bs.length).1 } := by
  induction bs generalizing s with
  | nil => simp [clockTms, InputPin.draw, jtagCycles]
  | cons b bs ih =>
    rw [clockTms, ih, jtagNext_eq]
    cases bs <;> simp [InputPin.draw, jtagCycles, List.getLast?_cons]

/-- What the data loop does (R82). -/
theorem clockData_eq (finalTms : Bool) (bs : List Bool) (s : State) (h : bs ≠ []) :
    clockData finalTms bs s =
      ((s.tdo.draw Config.freeTdoLevel bs.length).1,
        { s with
          tms := finalTms, tdi := bs.getLastD s.tdi, tck := false
          tapShadow := (shiftTms finalTms bs.length).foldl tapNext s.tapShadow
          tdo := (s.tdo.draw Config.freeTdoLevel bs.length).2
          trace := s.trace ++ jtagCycles (delayEvents s.delayCount) (shiftTms finalTms bs.length) bs
            (s.tdo.draw Config.freeTdoLevel bs.length).1 }) := by
  induction bs generalizing s with
  | nil => exact absurd rfl h
  | cons b bs ih =>
    cases bs with
    | nil => simp [clockData, jtagNext_eq, InputPin.draw, jtagCycles, shiftTms]
    | cons c cs =>
      rw [clockData, ih _ (by simp), jtagNext_eq]
      simp [InputPin.draw, jtagCycles, shiftTms, List.replicate_succ, List.getLast?_cons]

@[simp] theorem shiftLevels_length (tdi : List Byte) (count k : Nat) : (shiftLevels tdi count k).length = count := by
  simp [shiftLevels]

theorem shiftLevels_getLastD (tdi : List Byte) {count : Nat} (k : Nat) (x : Bool) (h : 1 ≤ count) :
    (shiftLevels tdi count k).getLastD x = shiftLevel tdi k (count - 1) := by
  obtain ⟨m, rfl⟩ : ∃ m, count = m + 1 := ⟨count - 1, by omega⟩
  simp [shiftLevels, List.range_succ]

theorem shiftLevels_ne_nil (tdi : List Byte) {count : Nat} (k : Nat) (h : 1 ≤ count) : shiftLevels tdi count k ≠ [] := by
  intro h'
  have := congrArg List.length h'
  rw [shiftLevels_length] at this
  exact absurd this (Nat.ne_of_gt h)

/-- A buffer that holds enough bits is what is clocked out (R82). -/
theorem shiftLevels_of_fits {tdi : List Byte} {count : Nat} (k : Nat) (h : count ≤ 8 * tdi.length) :
    shiftLevels tdi count k = bufferBits tdi count :=
  List.map_congr_left fun i hi => if_pos (Nat.lt_of_lt_of_le (List.mem_range.mp hi) h)

/-- A data shift in two parts (R82): the first part ends with TMS 0. -/
theorem clockData_append (finalTms : Bool) (xs : List Bool) {ys : List Bool} (s : State) (h : ys ≠ []) :
    clockData finalTms (xs ++ ys) s =
      ((clockData false xs s).1 ++ (clockData finalTms ys (clockData false xs s).2).1,
        (clockData finalTms ys (clockData false xs s).2).2) := by
  induction xs generalizing s with
  | nil => rfl
  | cons x xs ih =>
    have he : (xs ++ ys).isEmpty = false := by simp [h]
    simp only [List.cons_append, clockData, he, Bool.false_and, Bool.and_false, ih]

/-- What the TRST pulse does (R84). -/
theorem pulseTrst_eq (p : Params) (s : State) :
    pulseTrst p s =
      { s with
        trst := if p.open5.hasTrst then true else s.trst
        trace := s.trace ++ if p.open5.hasTrst then [.write .trst false, .write .trst true] else [] } := by
  unfold pulseTrst
  cases p.open5.hasTrst <;> simp [writePin, emit]

/-! ### SWD -/

/-- What a clock pulse does. -/
theorem swclkPulse_eq (s : State) :
    swclkPulse s = { s with swclk := false, trace := s.trace ++ swclkCycle (delayEvents s.delayCount) } := by
  simp [swclkPulse, writePin, emit, delay, swclkCycle]

/-- What `swd_clock_out` does (R101). -/
theorem swdClockOut_eq (b : Bool) (s : State) :
    swdClockOut b s =
      { s with swdioOut := b, swclk := false, trace := s.trace ++ outCycle (delayEvents s.delayCount) b } := by
  simp [swdClockOut, swclkPulse_eq, writePin, emit, outCycle]

/-- What `swd_clock_in` does (R102). -/
theorem swdClockIn_eq (s : State) :
    swdClockIn s =
      (s.swdioIn.level Config.freeSwdioLevel,
        { s with
          swclk := false, swdioIn := s.swdioIn.next
          trace := s.trace ++ inCycle (delayEvents s.delayCount) (s.swdioIn.level Config.freeSwdioLevel) }) := by
  simp [swdClockIn, swclkPulse_eq, samplePin, emit, inCycle]

/-- What `turnaround` does (R103). -/
theorem turnaround_eq (dir : Dir) (s : State) :
    turnaround dir s =
      { s with
        swdDir := dir
        swdioOe := if dir = s.swdDir then s.swdioOe else decide (dir = .drive)
        swclk := if dir = s.swdDir then s.swclk else false
        trace := s.trace ++ turnEvents (delayEvents s.delayCount) s.swdDir dir } := by
  by_cases h : dir = s.swdDir
  · subst h; simp [turnaround, turnEvents]
  · cases dir <;> simp [turnaround, h, turnEvents, swclkPulse_eq, setMode, emit]

/-- What the output loop does. -/
theorem clockOutBits_eq (bs : List Bool) (s : State) :
    clockOutBits bs s =
      { s with
        swdioOut := bs.getLastD s.swdioOut, swclk := if bs.isEmpty then s.swclk else false
        trace := s.trace ++ outCycles (delayEvents s.delayCount) bs } := by
  induction bs generalizing s with
  | nil => simp [clockOutBits, outCycles]
  | cons b bs ih =>
    rw [clockOutBits, ih, swdClockOut_eq]
    cases bs <;> simp [outCycles, List.getLast?_cons]

/-- What the input loop does. -/
theorem clockInBits_eq (n : Nat) (s : State) :
    clockInBits n s =
      ((s.swdioIn.draw Config.freeSwdioLevel n).1,
        { s with
          swdioIn := (s.swdioIn.draw Config.freeSwdioLevel n).2, swclk := if n = 0 then s.swclk else false
          trace := s.trace ++ inCycles (delayEvents s.delayCount) (s.swdioIn.draw Config.freeSwdioLevel n).1 }) := by
  induction n generalizing s with
  | zero => simp [clockInBits, InputPin.draw, inCycles]
  | succ n ih =>
    rw [clockInBits, ih, swdClockIn_eq]
    simp [InputPin.draw, inCycles]

/-- What `seq_out` does for a count in range (R106). -/
theorem sendBits_eq (bits : Word) (count : Nat) (s : State) :
    sendBits bits count s =
      { s with
        swdDir := .drive
        swdioOe := if .drive = s.swdDir then s.swdioOe else true
        swdioOut := (bitsOf bits count).getLastD s.swdioOut
        swclk := if .drive = s.swdDir ∧ count = 0 then s.swclk else false
        trace := s.trace ++ turnEvents (delayEvents s.delayCount) s.swdDir .drive
          ++ outCycles (delayEvents s.delayCount) (bitsOf bits count) } := by
  rw [sendBits, clockOutBits_eq, turnaround_eq]
  by_cases h : Dir.drive = s.swdDir <;> cases count <;> simp [h, bitsOf, List.range_succ]

/-- What `seq_out_with_parity` does for a count in range (R107). -/
theorem sendBitsParity_eq (value : Word) (count : Nat) (s : State) :
    sendBitsParity value count s =
      { s with
        swdDir := .drive
        swdioOe := if .drive = s.swdDir then s.swdioOe else true
        swdioOut := parity value
        swclk := false
        trace := s.trace ++ turnEvents (delayEvents s.delayCount) s.swdDir .drive
          ++ outCycles (delayEvents s.delayCount) (bitsOf value count ++ [parity value]) } := by
  rw [sendBitsParity, swdClockOut_eq, sendBits_eq]
  simp [outCycles]

/-- What `seq_in` does for a count in range (R104). -/
theorem receiveBits_eq (count : Nat) (s : State) :
    receiveBits count s =
      (wordOfBits 32 (s.swdioIn.draw Config.freeSwdioLevel count).1,
        { s with
          swdDir := .float
          swdioOe := if .float = s.swdDir then s.swdioOe else false
          swdioIn := (s.swdioIn.draw Config.freeSwdioLevel count).2
          swclk := if .float = s.swdDir ∧ count = 0 then s.swclk else false
          trace := s.trace ++ turnEvents (delayEvents s.delayCount) s.swdDir .float
            ++ inCycles (delayEvents s.delayCount) (s.swdioIn.draw Config.freeSwdioLevel count).1 }) := by
  rw [receiveBits, clockInBits_eq, turnaround_eq]
  by_cases h : Dir.float = s.swdDir <;> cases count <;> simp [h]

/-- What TURN does (R65): the turnaround to the other direction. -/
theorem turnLine_eq (s : State) : turnLine s = turnaround (otherDir s.swdDir) s := by
  have ho : (seqOut 0 0 s).2 = turnaround .drive s := rfl
  have hi : (seqIn 0 s).2 = turnaround .float s := rfl
  rw [turnLine, ho, hi]
  cases hs : s.swdDir
  · exact if_neg (by rw [turnaround_eq, hs]; simp [turnEvents, swclkCycle])
  · exact if_pos (by rw [turnaround_eq, hs]; simp [turnEvents])

/-- What `seq_in_with_parity` does for a count in range (R105). -/
theorem receiveBitsParity_eq (count : Nat) (s : State) :
    receiveBitsParity count s =
      let r := s.swdioIn.draw Config.freeSwdioLevel count
      let par := r.2.level Config.freeSwdioLevel
      ((wordOfBits 32 r.1, par == parity (wordOfBits 32 r.1)),
        { s with
          swdDir := .drive, swdioOe := true, swdioIn := r.2.next, swclk := false
          trace := s.trace ++ turnEvents (delayEvents s.delayCount) s.swdDir .float
            ++ inCycles (delayEvents s.delayCount) (r.1 ++ [par])
            ++ turnEvents (delayEvents s.delayCount) .float .drive }) := by
  simp [receiveBitsParity, receiveBits_eq, swdClockIn_eq, turnaround_eq, inCycles]

end Sys2Proof.Machine
end

