-- ==== Sys2Proof/Laws/Framer.lean ====
section
/-! SUPPORT. What the framer's operations do, with the target's answers given. -/

namespace Sys2Proof.Machine
open Sys2Proof.Safety

/-- What sending a request does (R126 step 1). -/
theorem sendRequest_eq (apndp rnw : Bool) (a : BitVec 2) (s : State) :
    sendRequest Config.params apndp rnw a s =
      { s with
        req := requestByte apndp rnw a
        swdDir := .drive
        swdioOe := if .drive = s.swdDir then s.swdioOe else true
        swdioOut := true
        swclk := false
        trace := s.trace ++ requestEvents (delayEvents s.delayCount) s.swdDir (requestByte apndp rnw a) } := by
  simp only [sendRequest, makeRequest_params, sendBits_eq]
  rw [bitsOf_zeroExtend _ (by omega), bitsOf_requestByte_last]
  simp [requestEvents]

/-- What receiving an acknowledge does, whatever the target presents (R126 step 2). -/
theorem receiveAck_eq (s : State) :
    receiveAck s =
      let r := s.swdioIn.draw Config.freeSwdioLevel 3
      { s with
        ack := (wordOfBits 32 r.1).setWidth 3
        swdDir := .float
        swdioOe := if .float = s.swdDir then s.swdioOe else false
        swdioIn := r.2
        swclk := false
        trace := s.trace ++ turnEvents (delayEvents s.delayCount) s.swdDir .float
          ++ inCycles (delayEvents s.delayCount) r.1 } := by
  simp [receiveAck, receiveBits_eq]

/-- The three bits received are the acknowledge presented. -/
theorem ack_presented (a : BitVec 3) : (wordOfBits 32 (bitsOf a 3)).setWidth 3 = a := by
  revert a; decide

/-- What a write data phase does (R124). -/
theorem writeDataPhase_eq (v : Word) (s : State) :
    writeDataPhase v s =
      { s with
        wdata := v
        swdDir := .drive
        swdioOe := if .drive = s.swdDir then s.swdioOe else true
        swdioOut := parity v
        swclk := false
        trace := s.trace ++ turnEvents (delayEvents s.delayCount) s.swdDir .drive
          ++ outCycles (delayEvents s.delayCount) (bitsOf v 32 ++ [parity v]) } := by
  simp [writeDataPhase, sendBitsParity_eq]

/-- What a read data phase does, whatever the target presents (R125). -/
theorem readDataPhase_eq (s : State) :
    readDataPhase s =
      let r := s.swdioIn.draw Config.freeSwdioLevel 32
      let par := r.2.level Config.freeSwdioLevel
      { s with
        rdata := wordOfBits 32 r.1
        pok := par == parity (wordOfBits 32 r.1)
        swdDir := .drive, swdioOe := true, swdioIn := r.2.next, swclk := false
        trace := s.trace ++ turnEvents (delayEvents s.delayCount) s.swdDir .float
          ++ inCycles (delayEvents s.delayCount) (r.1 ++ [par])
          ++ turnEvents (delayEvents s.delayCount) .float .drive } := by
  simp [readDataPhase, receiveBitsParity_eq]

end Sys2Proof.Machine
end

