-- ==== Sys2Proof/Laws/Sequencer.lean ====
section
/-! SUPPORT. What the sequencer's operations do, with the target's answers given. -/

namespace Sys2Proof.Machine
open Sys2Proof.Safety

/-! ### Answers -/

@[simp] theorem waitAnswers_length (n : Nat) : (waitAnswers n).length = 3 * n := by
  induction n with
  | zero => rfl
  | succ n ih => simp [waitAnswers, ih]; omega

theorem waitAnswers_succ (n : Nat) : waitAnswers (n + 1) = waitAnswers n ++ bitsOf (2 : BitVec 3) 3 := by
  induction n with
  | zero => simp [waitAnswers]
  | succ n ih =>
    have h : waitAnswers (n + 1) = bitsOf (2 : BitVec 3) 3 ++ waitAnswers n := rfl
    rw [waitAnswers, ih, ← List.append_assoc, ← h, ih]

/-- What stands after the WAIT answers. -/
theorem drop_waitAnswers {n m : Nat} {q r : List Bool} (h : q = waitAnswers n ++ r) :
    q.drop (3 * n + m) = r.drop m := by
  rw [h, ← List.drop_drop, ← waitAnswers_length n]; simp

/-- What stands after one acknowledge. -/
theorem drop_ack (a : BitVec 3) (q : List Bool) : (bitsOf a 3 ++ q).drop 3 = q := by
  rw [List.drop_append_of_le_length (by simp)]; simp [bitsOf]

/-- What stands after a read's answers. -/
theorem drop_readAnswers (v : Word) (par : Bool) (q : List Bool) : (readAnswers v par ++ q).drop 36 = q := by
  have h : (readAnswers v par).length = 36 := by simp [readAnswers]
  rw [← h]; simp

/-! ### Bookkeeping -/

/-- What the ABORT bookkeeping does (R143). -/
theorem clearFaultOnAbort_eq (apndp rnw : Bool) (a : BitVec 2) (s : State) :
    clearFaultOnAbort Config.params apndp rnw a s =
      { s with fault := if apndp = false ∧ rnw = false ∧ a = 0 then false else s.fault } := by
  unfold clearFaultOnAbort
  split
  · rename_i h; exact congrArg (fun x => { s with fault := x }) (if_pos h).symm
  · rename_i h; exact congrArg (fun x => { s with fault := x }) (if_neg h).symm

/-- What the SELECT bookkeeping does after OK (R144). -/
theorem trackSelect_eq (apndp rnw : Bool) (a : BitVec 2) (v : Word) (s : State) :
    trackSelect Config.params apndp rnw a v s =
      { s with
        selValid := if apndp = false ∧ rnw = false ∧ a = 2 then true else s.selValid
        selApsel := if apndp = false ∧ rnw = false ∧ a = 2 then v.extractLsb' 24 8 else s.selApsel
        selApbank := if apndp = false ∧ rnw = false ∧ a = 2 then v.extractLsb' 4 4 else s.selApbank
        selDpbank := if apndp = false ∧ rnw = false ∧ a = 2 then v.extractLsb' 0 4 else s.selDpbank } := by
  have h2 : Config.params.aSelect = 2 := rfl
  unfold trackSelect
  rw [h2]
  by_cases h : apndp = false ∧ rnw = false ∧ a = 2
  · simp only [if_pos h]; rfl
  · simp only [if_neg h]

/-- What the SELECT bookkeeping does after any other answer (R144). -/
theorem untrackSelect_eq (apndp rnw : Bool) (a : BitVec 2) (s : State) :
    untrackSelect Config.params apndp rnw a s =
      { s with selValid := if apndp = false ∧ rnw = false ∧ a = 2 then false else s.selValid } := by
  unfold untrackSelect
  split
  · rename_i h; exact congrArg (fun x => { s with selValid := x }) (if_pos h).symm
  · rename_i h; exact congrArg (fun x => { s with selValid := x }) (if_neg h).symm

/-! ### One attempt -/

/-- A request and an acknowledge. -/
theorem requestAck_eq (apndp rnw : Bool) (a : BitVec 2) (ack : BitVec 3) (q : List Bool) (s : State)
    (hq : s.swdioIn.queue = bitsOf ack 3 ++ q) :
    receiveAck (sendRequest Config.params apndp rnw a s) =
      { s with
        req := requestByte apndp rnw a, ack := ack, swdDir := .float, swdioOe := false, swdioOut := true, swclk := false
        swdioIn := ⟨q, s.swdioIn.drawn⟩
        trace := s.trace ++ requestEvents (delayEvents s.delayCount) s.swdDir (requestByte apndp rnw a)
          ++ ackEvents (delayEvents s.delayCount) ack } := by
  have hd := InputPin.draw_queued Config.freeSwdioLevel (bitsOf ack 3) q s.swdioIn.drawn
  rw [bitsOf_length, ← hq] at hd
  simp only [sendRequest_eq, receiveAck_eq]
  rw [hd]
  simp [ack_presented, ackEvents]

/-- An attempt answered anything but OK. -/
theorem attempt_noData (apndp rnw : Bool) (a : BitVec 2) (v : Word) (ack : BitVec 3) (q : List Bool) (s : State)
    (h1 : ack ≠ 1) (hq : s.swdioIn.queue = bitsOf ack 3 ++ q) :
    attempt Config.params apndp rnw a v s = (decodeAck Config.params ack,
      { s with
        req := requestByte apndp rnw a, ack := ack, swdDir := .float, swdioOe := false, swdioOut := true, swclk := false
        phase := .req, tries := s.tries + 1, swdioIn := ⟨q, s.swdioIn.drawn⟩
        trace := s.trace ++ requestEvents (delayEvents s.delayCount) s.swdDir (requestByte apndp rnw a)
          ++ ackEvents (delayEvents s.delayCount) ack }) := by
  have hc : decodeAck Config.params ack ≠ .ok := by
    rw [decodeAck_params]; simp only [h1, if_false]; split <;> [simp; split <;> simp]
  simp only [attempt, swdTransaction, requestAck_eq apndp rnw a ack q { s with phase := .req, tries := s.tries + 1 } hq,
    if_neg hc]

/-- A read attempt answered OK. -/
theorem attempt_read (apndp : Bool) (a : BitVec 2) (v0 v : Word) (par : Bool) (q : List Bool) (s : State)
    (hq : s.swdioIn.queue = readAnswers v par ++ q) :
    attempt Config.params apndp true a v0 s = (.ok,
      { s with
        req := requestByte apndp true a, ack := 1, rdata := v, pok := par == parity v
        swdDir := .drive, swdioOe := true, swdioOut := true, swclk := false
        phase := .req, tries := s.tries + 1, swdioIn := ⟨q, s.swdioIn.drawn⟩
        trace := s.trace ++ requestEvents (delayEvents s.delayCount) s.swdDir (requestByte apndp true a)
          ++ ackEvents (delayEvents s.delayCount) 1 ++ readEvents (delayEvents s.delayCount) v par }) := by
  have hc : decodeAck Config.params 1 = .ok := rfl
  have hd := InputPin.draw_queued Config.freeSwdioLevel (bitsOf v 32) (par :: q) s.swdioIn.drawn
  rw [bitsOf_length] at hd
  have hq' : s.swdioIn.queue = bitsOf (1 : BitVec 3) 3 ++ (bitsOf v 32 ++ par :: q) := by simp [hq, readAnswers]
  simp only [attempt, swdTransaction, requestAck_eq apndp true a 1 _ { s with phase := .req, tries := s.tries + 1 } hq',
    hc, if_true, dataPhase, readDataPhase_eq, hd, InputPin.level, InputPin.next, wordOfBits_bitsOf]
  simp [readEvents, turnEvents]

/-- A write attempt answered OK. -/
theorem attempt_write (apndp : Bool) (a : BitVec 2) (v : Word) (q : List Bool) (s : State)
    (hq : s.swdioIn.queue = bitsOf (1 : BitVec 3) 3 ++ q) :
    attempt Config.params apndp false a v s = (.ok,
      { s with
        req := requestByte apndp false a, ack := 1, wdata := v
        swdDir := .drive, swdioOe := true, swdioOut := parity v, swclk := false
        phase := .req, tries := s.tries + 1, swdioIn := ⟨q, s.swdioIn.drawn⟩
        trace := s.trace ++ requestEvents (delayEvents s.delayCount) s.swdDir (requestByte apndp false a)
          ++ ackEvents (delayEvents s.delayCount) 1 ++ writeEvents (delayEvents s.delayCount) v }) := by
  have hc : decodeAck Config.params 1 = .ok := rfl
  simp only [attempt, swdTransaction, requestAck_eq apndp false a 1 q { s with phase := .req, tries := s.tries + 1 } hq,
    hc, if_true, dataPhase, writeDataPhase_eq]
  simp [writeEvents]

/-! ### The loop -/

/-- After `n` attempts of the loop that were answered WAIT. -/
theorem attempts_waits (apndp rnw : Bool) (a : BitVec 2) (v : Word) (n more : Nat) (q : List Bool) (s : State)
    (hq : s.swdioIn.queue = waitAnswers (n + 1) ++ q) :
    attempts Config.params apndp rnw a v (n + 1 + more) s =
      attempts Config.params apndp rnw a v more
        { s with
          req := requestByte apndp rnw a, ack := 2, swdDir := .float, swdioOe := false, swdioOut := true, swclk := false
          phase := .req, tries := s.tries + (n + 1), swdioIn := ⟨q, s.swdioIn.drawn⟩
          trace := s.trace ++ waitEvents (delayEvents s.delayCount) (requestByte apndp rnw a) (n + 1) s.swdDir } := by
  have hw : decodeAck Config.params 2 = .wait := rfl
  induction n generalizing s with
  | zero =>
    have hq1 : s.swdioIn.queue = bitsOf (2 : BitVec 3) 3 ++ q := by simpa [waitAnswers] using hq
    rw [show 0 + 1 + more = more + 1 by omega, attempts]
    simp only [attempt_noData apndp rnw a v 2 _ s (by decide) hq1, hw, if_true]
    simp [waitEvents]
  | succ n ih =>
    have hq1 : s.swdioIn.queue = bitsOf (2 : BitVec 3) 3 ++ (waitAnswers (n + 1) ++ q) := by
      rw [hq, waitAnswers, List.append_assoc]
    rw [show n + 1 + 1 + more = (n + 1 + more) + 1 by omega, attempts]
    simp only [attempt_noData apndp rnw a v 2 _ s (by decide) hq1, hw, if_true]
    rw [ih _ rfl, show waitEvents (delayEvents s.delayCount) (requestByte apndp rnw a) (n + 1 + 1) s.swdDir =
      requestEvents (delayEvents s.delayCount) s.swdDir (requestByte apndp rnw a) ++ ackEvents (delayEvents s.delayCount) 2
        ++ waitEvents (delayEvents s.delayCount) (requestByte apndp rnw a) (n + 1) .float from rfl]
    simp only [List.append_assoc, Nat.add_assoc, Nat.add_comm 1]

/-- The attempt that ends the loop: not answered WAIT, or the last one allowed. -/
theorem attempts_last {apndp rnw : Bool} {a : BitVec 2} {v : Word} {more : Nat} {s : State} {r : AckClass × State}
    (h : attempt Config.params apndp rnw a v s = r) (hr : r.1 ≠ .wait ∨ more = 0) :
    attempts Config.params apndp rnw a v more s = r := by
  cases more with
  | zero => exact h
  | succ m => rw [attempts, h]; exact if_neg (by simpa using hr)

/-! ### Whatever the target answers -/

/-- An attempt, whatever the target answers: the acknowledge received, and by it nothing more, or a data phase. -/
theorem attempt_cases (apndp rnw : Bool) (a : BitVec 2) (v : Word) (s : State) :
    ∃ (ack : BitVec 3) (pin : InputPin),
      (ack ≠ 1 ∧ attempt Config.params apndp rnw a v s = (decodeAck Config.params ack,
        { s with
          req := requestByte apndp rnw a, ack := ack, swdDir := .float, swdioOe := false, swdioOut := true, swclk := false
          phase := .req, tries := s.tries + 1, swdioIn := pin
          trace := s.trace ++ requestEvents (delayEvents s.delayCount) s.swdDir (requestByte apndp rnw a)
            ++ ackEvents (delayEvents s.delayCount) ack }))
      ∨ (rnw = true ∧ ∃ (w : Word) (par : Bool), attempt Config.params apndp rnw a v s = (.ok,
        { s with
          req := requestByte apndp rnw a, ack := 1, rdata := w, pok := par == parity w
          swdDir := .drive, swdioOe := true, swdioOut := true, swclk := false
          phase := .req, tries := s.tries + 1, swdioIn := pin
          trace := s.trace ++ requestEvents (delayEvents s.delayCount) s.swdDir (requestByte apndp rnw a)
            ++ ackEvents (delayEvents s.delayCount) 1 ++ readEvents (delayEvents s.delayCount) w par }))
      ∨ (rnw = false ∧ attempt Config.params apndp rnw a v s = (.ok,
        { s with
          req := requestByte apndp rnw a, ack := 1, wdata := v
          swdDir := .drive, swdioOe := true, swdioOut := parity v, swclk := false
          phase := .req, tries := s.tries + 1, swdioIn := pin
          trace := s.trace ++ requestEvents (delayEvents s.delayCount) s.swdDir (requestByte apndp rnw a)
            ++ ackEvents (delayEvents s.delayCount) 1 ++ writeEvents (delayEvents s.delayCount) v })) := by
  obtain ⟨bs, hbs⟩ : ∃ bs, (s.swdioIn.draw Config.freeSwdioLevel 3).1 = bs := ⟨_, rfl⟩
  obtain ⟨p1, hp1⟩ : ∃ p, (s.swdioIn.draw Config.freeSwdioLevel 3).2 = p := ⟨_, rfl⟩
  have hlen : bs.length = 3 := by rw [← hbs]; simp
  obtain ⟨ack, hack⟩ : ∃ ack : BitVec 3, (wordOfBits 32 bs).setWidth 3 = ack := ⟨_, rfl⟩
  have hbits : bs = bitsOf ack 3 := by
    have h3 := bitsOf_wordOfBits (w := 32) hlen (by omega)
    rw [← hack]
    conv_lhs => rw [← h3]
    apply List.map_congr_left
    intro i hi
    have := List.mem_range.mp hi
    simp [this]
  clear hack
  subst hbits
  have hdata : (p1.draw Config.freeSwdioLevel 32).1
      = bitsOf (wordOfBits 32 (p1.draw Config.freeSwdioLevel 32).1) 32 :=
    (bitsOf_wordOfBits (by simp) (Nat.le_refl _)).symm
  by_cases h1 : ack = 1
  · subst h1
    have hc : decodeAck Config.params 1 = .ok := rfl
    cases rnw
    · refine ⟨1, p1, .inr (.inr ⟨rfl, ?_⟩)⟩
      simp only [attempt, swdTransaction, sendRequest_eq, receiveAck_eq, hbs, hp1, ack_presented, hc, if_true,
        dataPhase, writeDataPhase_eq]
      simp [writeEvents, ackEvents]
    · refine ⟨1, (p1.draw Config.freeSwdioLevel 32).2.next, .inr (.inl ⟨rfl, wordOfBits 32 (p1.draw Config.freeSwdioLevel 32).1,
        (p1.draw Config.freeSwdioLevel 32).2.level Config.freeSwdioLevel, ?_⟩)⟩
      simp only [attempt, swdTransaction, sendRequest_eq, receiveAck_eq, hbs, hp1, ack_presented, hc, if_true,
        dataPhase, readDataPhase_eq, readEvents, ← hdata]
      simp [ackEvents, turnEvents]
  · have hc : decodeAck Config.params ack ≠ .ok := by
      rw [decodeAck_params]; simp only [h1, if_false]; split <;> [simp; split <;> simp]
    refine ⟨ack, p1, .inl ⟨h1, ?_⟩⟩
    simp only [attempt, swdTransaction, sendRequest_eq, receiveAck_eq, hbs, hp1, ack_presented, hc, if_false]
    simp [ackEvents]

theorem waitDir_succ (n : Nat) (now : Dir) : waitDir (n + 1) now = waitDir n .float := by
  cases n <;> rfl

/-- The loop, whatever the target answers: `n` attempts answered WAIT, and one that ends it. -/
theorem attempts_cases (apndp rnw : Bool) (a : BitVec 2) (v : Word) (more : Nat) (s : State) :
    ∃ (n : Nat) (pin : InputPin), n ≤ more ∧
      ((∃ ack : BitVec 3, ack ≠ 1 ∧ (ack = 2 → n = more) ∧
        attempts Config.params apndp rnw a v more s = (decodeAck Config.params ack,
        { s with
          req := requestByte apndp rnw a, ack := ack, swdDir := .float, swdioOe := false, swdioOut := true, swclk := false
          phase := .req, tries := s.tries + (n + 1), swdioIn := pin
          trace := s.trace ++ (waitEvents (delayEvents s.delayCount) (requestByte apndp rnw a) n s.swdDir
            ++ requestEvents (delayEvents s.delayCount) (waitDir n s.swdDir) (requestByte apndp rnw a)
            ++ ackEvents (delayEvents s.delayCount) ack) }))
      ∨ (rnw = true ∧ ∃ (w : Word) (par : Bool), attempts Config.params apndp rnw a v more s = (.ok,
        { s with
          req := requestByte apndp rnw a, ack := 1, rdata := w, pok := par == parity w
          swdDir := .drive, swdioOe := true, swdioOut := true, swclk := false
          phase := .req, tries := s.tries + (n + 1), swdioIn := pin
          trace := s.trace ++ (waitEvents (delayEvents s.delayCount) (requestByte apndp rnw a) n s.swdDir
            ++ requestEvents (delayEvents s.delayCount) (waitDir n s.swdDir) (requestByte apndp rnw a)
            ++ ackEvents (delayEvents s.delayCount) 1) ++ readEvents (delayEvents s.delayCount) w par }))
      ∨ (rnw = false ∧ attempts Config.params apndp rnw a v more s = (.ok,
        { s with
          req := requestByte apndp rnw a, ack := 1, wdata := v
          swdDir := .drive, swdioOe := true, swdioOut := parity v, swclk := false
          phase := .req, tries := s.tries + (n + 1), swdioIn := pin
          trace := s.trace ++ (waitEvents (delayEvents s.delayCount) (requestByte apndp rnw a) n s.swdDir
            ++ requestEvents (delayEvents s.delayCount) (waitDir n s.swdDir) (requestByte apndp rnw a)
            ++ ackEvents (delayEvents s.delayCount) 1) ++ writeEvents (delayEvents s.delayCount) v }))) := by
  induction more generalizing s with
  | zero =>
    obtain ⟨ack, pin, h⟩ := attempt_cases apndp rnw a v s
    refine ⟨0, pin, Nat.le_refl _, ?_⟩
    rcases h with ⟨h1, h⟩ | ⟨h1, w, par, h⟩ | ⟨h1, h⟩
    · exact .inl ⟨ack, h1, fun _ => rfl, by simp only [attempts, h]; simp [waitEvents, waitDir]⟩
    · exact .inr (.inl ⟨h1, w, par, by simp only [attempts, h]; simp [waitEvents, waitDir]⟩)
    · exact .inr (.inr ⟨h1, by simp only [attempts, h]; simp [waitEvents, waitDir]⟩)
  | succ more ih =>
    obtain ⟨ack, pin, h⟩ := attempt_cases apndp rnw a v s
    by_cases h2 : ack ≠ 1 ∧ ack = 2 ∧ (attempt Config.params apndp rnw a v s).1 = .wait
    · obtain ⟨h1, rfl, hw⟩ := h2
      rcases h with ⟨-, h⟩ | ⟨-, w, par, h⟩ | ⟨-, h⟩
      · rw [attempts]
        simp only [hw, if_true]
        simp only [h]
        obtain ⟨n, pin, hn, hc⟩ := ih { s with
          req := requestByte apndp rnw a, ack := 2, swdDir := .float, swdioOe := false, swdioOut := true, swclk := false
          phase := .req, tries := s.tries + 1, swdioIn := pin
          trace := s.trace ++ requestEvents (delayEvents s.delayCount) s.swdDir (requestByte apndp rnw a)
            ++ ackEvents (delayEvents s.delayCount) 2 }
        refine ⟨n + 1, pin, by omega, ?_⟩
        rcases hc with ⟨ack, h1, h2, hc⟩ | ⟨h1, w, par, hc⟩ | ⟨h1, hc⟩
        · refine .inl ⟨ack, h1, fun h => by rw [h2 h], hc.trans ?_⟩
          simp [waitEvents, waitDir_succ, Nat.add_assoc, Nat.add_comm 1]
        · refine .inr (.inl ⟨h1, w, par, hc.trans ?_⟩)
          simp [waitEvents, waitDir_succ, Nat.add_assoc, Nat.add_comm 1]
        · refine .inr (.inr ⟨h1, hc.trans ?_⟩)
          simp [waitEvents, waitDir_succ, Nat.add_assoc, Nat.add_comm 1]
      · rw [h] at hw; cases hw
      · rw [h] at hw; cases hw
    · rcases h with ⟨h1, h⟩ | ⟨h1, w, par, h⟩ | ⟨h1, h⟩
      · have hack : ack ≠ 2 := by
          rintro rfl
          exact h2 ⟨h1, rfl, by rw [h]; rfl⟩
        have hw : decodeAck Config.params ack ≠ .wait := by
          rw [decodeAck_params]; simp only [h1, hack, if_false]; split <;> simp
        refine ⟨0, pin, Nat.zero_le _, .inl ⟨ack, h1, fun h => absurd h hack, ?_⟩⟩
        rw [attempts_last h (.inl hw)]; simp [waitEvents, waitDir]
      · refine ⟨0, pin, Nat.zero_le _, .inr (.inl ⟨h1, w, par, ?_⟩)⟩
        rw [attempts_last h (.inl (by simp))]; simp [waitEvents, waitDir]
      · refine ⟨0, pin, Nat.zero_le _, .inr (.inr ⟨h1, ?_⟩)⟩
        rw [attempts_last h (.inl (by simp))]; simp [waitEvents, waitDir]

theorem addrAligned_iff {w : Nat} (addr : BitVec w) : addrAligned addr = true ↔ addr.extractLsb' 0 2 = 0 := by
  simp [addrAligned]

/-- An access, whatever the target answers: refused for its address, or `n` WAITs and one of the three ends. -/
theorem lowAccess_cases (rnw : Bool) (addr : BitVec 9) (v : Word) (s : State) :
    (addrAligned addr = false ∧ lowAccess Config.params rnw addr v s = (.refused .badAddress, s))
    ∨ (addrAligned addr = true ∧ ∃ (n : Nat) (pin : InputPin), n < Config.params.retryBound ∧
      ((∃ ack : BitVec 3, ack ≠ 1 ∧ (ack = 2 → n + 1 = Config.params.retryBound) ∧
        lowAccess Config.params rnw addr v s = (noDataOutcome ack,
          { afterNoData (addrApndp addr) rnw (addrSlot addr) n ack s with
            phase := .idle, swclk := false, swdioIn := pin }))
      ∨ (rnw = true ∧ ∃ (w : Word) (par : Bool), lowAccess Config.params rnw addr v s = (readOutcome w par,
          { afterRead (addrApndp addr) (addrSlot addr) n w par s with
            phase := .idle, swclk := false, swdioIn := pin }))
      ∨ (rnw = false ∧ lowAccess Config.params rnw addr v s = (.ok .nothing,
          { afterWrite (addrApndp addr) (addrSlot addr) n v s with
            phase := .idle, swclk := false, swdioIn := pin })))) := by
  by_cases ha : addrAligned addr = true
  swap
  · exact .inl ⟨by simpa using ha, if_neg ha⟩
  refine .inr ⟨ha, ?_⟩
  obtain ⟨n, pin, hn, hc⟩ := attempts_cases (addrApndp addr) rnw (addrSlot addr) v Config.params.open5.retryPred
    { s with tries := 0 }
  refine ⟨n, pin, Nat.lt_succ_of_le hn, ?_⟩
  rcases hc with ⟨ack, h1, h2, hc⟩ | ⟨rfl, w, par, hc⟩ | ⟨rfl, hc⟩
  · refine .inl ⟨ack, h1, fun h => congrArg Nat.succ (h2 h), ?_⟩
    simp only [lowAccess, ha, if_true, hc]
    simp only [finishAccess, untrackSelect_eq, afterNoData, accessEvents, decodeAck_params, noDataOutcome, h1, if_false]
    by_cases hw : ack = 2
    · subst hw; simp
    · by_cases hf : ack = 4
      · subst hf; simp
      · simp only [BitVec.ofNat_eq_ofNat] at hw hf
        simp [hw, hf]
  · refine .inr (.inl ⟨rfl, w, par, ?_⟩)
    simp only [lowAccess, ha, if_true, hc]
    simp only [finishAccess, clearFaultOnAbort_eq, trackSelect_eq, if_true, afterRead, accessEvents, readOutcome]
    simp
    by_cases hpar : par = parity w <;> simp [hpar]
  · refine .inr (.inr ⟨rfl, ?_⟩)
    simp only [lowAccess, ha, if_true, hc]
    simp only [finishAccess, clearFaultOnAbort_eq, trackSelect_eq, afterWrite, accessEvents]
    simp

end Sys2Proof.Machine
end

