-- ==== Sys2Proof/Laws/Trace.lean ====
section
/-! SUPPORT. Counting the events of a trace, and erasing its delays. -/

namespace Sys2Proof.Machine
open Sys2Proof.Safety

/-! ### Counting -/

theorem delayEvents_count (n : Word) {e : PinEvent} (h : e ≠ .delay) : (delayEvents n).count e = 0 := by
  unfold delayEvents; split <;> simp [h.symm]

theorem swclkCycles_append (a b : List PinEvent) : swclkCycles (a ++ b) = swclkCycles a + swclkCycles b :=
  List.count_append ..

/-- Each input cycle has one rising edge of SWCLK, and nothing but it, its samples and its falling edge. -/
theorem inCycles_count {d : List PinEvent} {e : PinEvent} (bs : List Bool) (hd : d.count e = 0)
    (h1 : ∀ b, e ≠ .sample .swdioIn b) (h2 : e ≠ .write .swclk false) :
    (inCycles d bs).count e = if e = .write .swclk true then bs.length else 0 := by
  induction bs with
  | nil => simp [inCycles]
  | cons b bs ih =>
    simp only [inCycles, List.flatMap_cons, List.count_append] at ih ⊢
    rw [ih]
    by_cases he : e = .write .swclk true
    · subst he; simp [inCycle, swclkCycle, List.count_append, hd]; omega
    · simp [he, inCycle, swclkCycle, List.count_append, hd, Ne.symm (h1 b), Ne.symm h2, Ne.symm he]

theorem outCycles_swclk {d : List PinEvent} (bs : List Bool) (hd : d.count (.write .swclk true) = 0) :
    swclkCycles (outCycles d bs) = bs.length := by
  induction bs with
  | nil => simp [outCycles, swclkCycles]
  | cons b bs ih =>
    simp only [swclkCycles, outCycles, List.flatMap_cons, List.count_append] at ih ⊢
    rw [ih]
    simp [outCycle, swclkCycle, List.count_append, hd]; omega

theorem turnEvents_swclk {d : List PinEvent} (now wanted : Dir) (hd : d.count (.write .swclk true) = 0) :
    swclkCycles (turnEvents d now wanted) = turnCost now wanted := by
  unfold swclkCycles turnEvents turnCost
  split
  · rfl
  · cases wanted <;> simp [swclkCycle, List.count_append, hd]

/-! ### Erasing delays -/

theorem eraseDelays_append (a b : List PinEvent) : eraseDelays (a ++ b) = eraseDelays a ++ eraseDelays b :=
  List.filter_append ..

theorem eraseDelays_cons (e : PinEvent) (t : List PinEvent) : eraseDelays (e :: t) = eraseDelays [e] ++ eraseDelays t :=
  eraseDelays_append [e] t

@[simp] theorem eraseDelays_delayEvents (n : Word) : eraseDelays (delayEvents n) = [] := by
  unfold delayEvents; split <;> rfl

theorem eraseDelays_swclkCycle {d : List PinEvent} (h : eraseDelays d = []) :
    eraseDelays (swclkCycle d) = swclkCycle [] := by
  simp only [swclkCycle, eraseDelays_append, h, List.append_nil]; rfl

theorem eraseDelays_outCycles {d : List PinEvent} (bs : List Bool) (h : eraseDelays d = []) :
    eraseDelays (outCycles d bs) = outCycles [] bs := by
  induction bs with
  | nil => rfl
  | cons b bs ih =>
    simp only [outCycles, List.flatMap_cons, eraseDelays_append, outCycle] at *
    rw [ih, eraseDelays_cons, eraseDelays_swclkCycle h]; rfl

theorem eraseDelays_inCycles {d : List PinEvent} (bs : List Bool) (h : eraseDelays d = []) :
    eraseDelays (inCycles d bs) = inCycles [] bs := by
  induction bs with
  | nil => rfl
  | cons b bs ih =>
    simp only [inCycles, List.flatMap_cons, eraseDelays_append, inCycle] at *
    rw [ih, eraseDelays_cons, eraseDelays_swclkCycle h]; rfl

theorem eraseDelays_turnEvents {d : List PinEvent} (now wanted : Dir) (h : eraseDelays d = []) :
    eraseDelays (turnEvents d now wanted) = turnEvents [] now wanted := by
  unfold turnEvents
  split
  · rfl
  · cases wanted
    · simp only []; rw [eraseDelays_cons, eraseDelays_swclkCycle h]; rfl
    · simp only [eraseDelays_append, eraseDelays_swclkCycle h]; rfl

theorem eraseDelays_jtagCycle {d : List PinEvent} (tms tdi tdo : Bool) (h : eraseDelays d = []) :
    eraseDelays (jtagCycle d tms tdi tdo) = jtagCycle [] tms tdi tdo := by
  simp only [jtagCycle, eraseDelays_append, h, List.append_nil]; rfl

theorem eraseDelays_jtagCycles {d : List PinEvent} (m i o : List Bool) (h : eraseDelays d = []) :
    eraseDelays (jtagCycles d m i o) = jtagCycles [] m i o := by
  induction m generalizing i o with
  | nil => rfl
  | cons x m ih =>
    cases i <;> cases o <;> first | rfl | simp only [jtagCycles, eraseDelays_append, ih, eraseDelays_jtagCycle _ _ _ h]

end Sys2Proof.Machine
end

