-- ==== Sys2Proof/Laws/Commands.lean ====
section
/-! SUPPORT. The commands as bodies of one shape, and the commands of several accesses by their cases. -/

namespace Sys2Proof.Machine
open Sys2Proof.Safety

/-- What a command does at an idle block; the identity for what is no command. -/
def commandBody : Instr → State → CmdOutcome × State
  | .jtagReset => jtagReset Config.params
  | .jtagNext tms tdi => fun s => (.ok (.bit (jtagNext tms tdi s).1), (jtagNext tms tdi s).2)
  | .shiftTmsSequence bits count => shiftTmsSequence bits count
  | .shiftData tdi count finalTms => shiftData Config.params tdi count finalTms
  | .shiftDataDiscardOutput tdi count finalTms => shiftDataDiscardOutput Config.params tdi count finalTms
  | .seqOut bits count => seqOut bits count
  | .seqOutWithParity value count => seqOutWithParity value count
  | .seqIn count => seqIn count
  | .seqInWithParity count => seqInWithParity count
  | .setDelay n => setDelay n
  | .lowAccess rnw addr value => lowAccess Config.params rnw addr value
  | .dpRead addr => dpRead Config.params addr
  | .dpWrite addr value => dpWrite Config.params addr value
  | .dpAbort value => dpAbort Config.params value
  | .apRead apsel addr => apRead Config.params apsel addr
  | .apWrite apsel addr value => apWrite Config.params apsel addr value
  | .dpAttach => dpAttach Config.params
  | .faultRead => faultRead
  | .idcodeRead => fun s => readRegister s.idcode s
  | .targetidRead => fun s => readRegister s.targetid s
  | .reqDpWA0 | .reqDpWA4 | .reqDpWA8 | .reqDpWAC | .reqDpRA0 | .reqDpRA4 | .reqDpRA8 | .reqDpRAC
  | .reqApWA0 | .reqApWA4 | .reqApWA8 | .reqApWAC | .reqApRA0 | .reqApRA4 | .reqApRA8 | .reqApRAC
  | .ackOk | .ackWait | .ackFault | .ackInvalid0 | .ackInvalid3 | .ackInvalid5 | .ackInvalid6 | .ackInvalid7
  | .dataW _ | .dataR _ _ | .turn | .tmsseq _ _ | .shift _ _ _ => fun s => (.ok .nothing, s)

/-- Executing a command is running its body (R49, R206). -/
theorem exec_command {i : Instr} (h : i.format = .cmd) (s : State) : exec i s = runCommand (commandBody i) s := by
  cases i <;> first | rfl | cases h

/-- The second access of a command is made only after an Ok (R150). -/
theorem andThenOk_cases (r : CmdOutcome × State) (next : State → CmdOutcome × State) :
    (andThenOk r next = r ∧ ∀ v, r.1 ≠ .ok v) ∨ (andThenOk r next = next r.2 ∧ ∃ v, r.1 = .ok v) := by
  unfold andThenOk
  split
  · rename_i v h; exact .inr ⟨rfl, v, h⟩
  · rename_i h; exact .inl ⟨rfl, h⟩

theorem ensureSelectDp_write {bank : BitVec 4} {s : State} (h : ¬(s.selValid = true ∧ s.selDpbank = bank)) :
    ensureSelectDp Config.params bank s = writeSelect Config.params (dpSelectWord s bank) s := by
  unfold ensureSelectDp dpSelectWord
  rw [if_neg h, selectValue_eq_selectWord, selectValue_eq_selectWord]

theorem ensureSelectAp_write {apsel : BitVec 8} {bank : BitVec 4} {s : State}
    (h : ¬(s.selValid = true ∧ s.selApsel = apsel ∧ s.selApbank = bank)) :
    ensureSelectAp Config.params apsel bank s = writeSelect Config.params (apSelectWord s apsel bank) s := by
  unfold ensureSelectAp apSelectWord
  rw [if_neg h, selectValue_eq_selectWord]

/-- An Ok of a read access carries a word (R141). -/
theorem lowAccess_read_ok {addr : BitVec 9} {s : State} {v : Value}
    (h : (lowAccess Config.params true addr 0 s).1 = .ok v) : ∃ w, v = .word w := by
  rcases lowAccess_cases true addr 0 s with ⟨-, h'⟩ | ⟨-, n, pin, -, ⟨ack, -, -, h'⟩ | ⟨-, w, par, h'⟩ | ⟨h0, -⟩⟩
  · rw [h'] at h; cases h
  · rw [h'] at h; simp only [noDataOutcome] at h; split at h <;> [cases h; (split at h <;> cases h)]
  · rw [h'] at h; simp only [readOutcome] at h; split at h <;> cases h; exact ⟨_, rfl⟩
  · cases h0

/-- An Ok of `dp_read` carries a word (R146). -/
theorem dpRead_ok {addr : Byte} {s : State} {v : Value} (h : (dpRead Config.params addr s).1 = .ok v) :
    ∃ w, v = .word w := by
  unfold dpRead at h
  split at h
  · rcases andThenOk_cases (ensureSelectDp Config.params (addrBank addr) s)
      (lowAccess Config.params true (fullAddr false addr) 0) with ⟨e, hne⟩ | ⟨e, -⟩
    · rw [e] at h; exact absurd h (hne v)
    · rw [e] at h; exact lowAccess_read_ok h
  · cases h

/-- All a step of an idle block can do: nothing, one instruction, or the refusal of an unknown command code (R201, R70). -/
theorem step_idle_cases {s t : State} (hp : s.phase = .idle) (h : step s = .next t) :
    t = s ∨ (∃ i rest, exec i { s with port := rest } = .next t)
    ∨ ∃ rest, t = { s with port := rest, outcomes := s.outcomes ++ [.refused .badCommand] } := by
  unfold step fetch at h
  cases hpt : s.port with
  | nil =>
    rw [hpt] at h
    simp only [fetchPhase, hp] at h
    cases h; exact .inl rfl
  | cons pk rest =>
    rw [hpt] at h
    simp only at h
    cases hd : decode pk.format pk.bytes with
    | ok r => rw [hd] at h; exact .inr (.inl ⟨r.1, rest, h⟩)
    | error e =>
      rw [hd] at h
      simp only [rejectPacket] at h
      split at h
      · rw [runCommand_idle (s := { s with port := rest }) _ hp] at h
        cases h; exact .inr (.inr ⟨rest, rfl⟩)
      · cases h

/-- `dp_attach` by its cases (R154): `r` is the read of address 0, `r2` the read of TARGETID. -/
theorem dpAttach_cases (s : State) :
    ∃ r, r = lowAccess Config.params true (slotAddr 0) 0
        { s with fault := false, selValid := false, idcode := none, targetid := none } ∧
      ((dpAttach Config.params s = r ∧ ∀ v, r.1 ≠ .ok v)
      ∨ ∃ v, r.1 = .ok (.word v) ∧
        ((Config.params.open5.dpV2 = false ∧ dpAttach Config.params s = (.ok .nothing, { r.2 with idcode := some v }))
        ∨ (Config.params.open5.dpV2 = true ∧ ∃ r2, r2 = dpRead Config.params targetidAddr { r.2 with idcode := some v } ∧
          ((dpAttach Config.params s = r2 ∧ ∀ v, r2.1 ≠ .ok v)
          ∨ ∃ w, r2.1 = .ok (.word w) ∧ dpAttach Config.params s = (.ok .nothing, { r2.2 with targetid := some w }))))) := by
  refine ⟨_, rfl, ?_⟩
  have hv := @lowAccess_read_ok (slotAddr 0) { s with fault := false, selValid := false, idcode := none, targetid := none }
  have hA : dpAttach Config.params s =
      match lowAccess Config.params true (slotAddr 0) 0
          { s with fault := false, selValid := false, idcode := none, targetid := none } with
      | (.ok (.word v), s) =>
        let s := { s with idcode := some v }
        if Config.params.open5.dpV2 then loadTargetid Config.params s else (.ok .nothing, s)
      | r => r := rfl
  generalize lowAccess Config.params true (slotAddr 0) 0
    { s with fault := false, selValid := false, idcode := none, targetid := none } = r at *
  obtain ⟨o, s1⟩ := r
  cases o with
  | ok v =>
    obtain ⟨w, rfl⟩ := hv rfl
    refine .inr ⟨w, rfl, ?_⟩
    simp only at hA
    by_cases hp : Config.params.open5.dpV2 = true
    · refine .inr ⟨hp, _, rfl, ?_⟩
      rw [if_pos hp] at hA
      have hd := @dpRead_ok targetidAddr { s1 with idcode := some w }
      unfold loadTargetid at hA
      generalize dpRead Config.params targetidAddr { s1 with idcode := some w } = r2 at *
      obtain ⟨o2, s2⟩ := r2
      cases o2 with
      | ok v2 => obtain ⟨w2, rfl⟩ := hd rfl; exact .inr ⟨w2, rfl, hA⟩
      | _ => exact .inl ⟨hA, by simp⟩
    · rw [if_neg hp] at hA; exact .inl ⟨by simpa using hp, hA⟩
  | _ => exact .inl ⟨hA, by simp⟩

end Sys2Proof.Machine
end

