-- ==== Sys2Proof/Laws/Decode.lean ====
section
/-! SUPPORT. Each operand of a packet read back from its encoding, and the encoding of what was read. -/

namespace Sys2Proof
open Machine

/-! ### Reading an encoded operand -/

theorem takeByte_cons (b : Byte) (rest : List Byte) : takeByte (b :: rest) = .ok (b, rest) := rfl

theorem takeBit_encode (b : Bool) (rest : List Byte) : takeBit (encodeBit b ++ rest) = .ok (b, rest) := by
  cases b <;> rfl

theorem takeWord_encode (v : Word) (rest : List Byte) : takeWord (bytesOfWord v ++ rest) = .ok (v, rest) := by
  simp [takeWord, bytesOfWord]

theorem takeAddr_encode (a : BitVec 9) (rest : List Byte) : takeAddr (encodeAddr a ++ rest) = .ok (a, rest) := by
  have h : takeAddr (encodeAddr a ++ rest) =
      .ok (if a.getLsbD 8 then (a.setWidth 8).zeroExtend 9 ||| 0x100 else (a.setWidth 8).zeroExtend 9, rest) := by
    simp only [encodeAddr, List.cons_append, List.nil_append, takeAddr, bitAt]
    cases a.getLsbD 8 <;> rfl
  rw [h]; congr 2; clear h; revert a; decide

theorem takeCount_encode {n : Nat} (h : n < 2 ^ 32) (rest : List Byte) :
    takeCount (encodeCount n ++ rest) = .ok (n, rest) := by
  simp only [takeCount, encodeCount, takeWord_encode]
  rw [BitVec.toNat_ofNat, Nat.mod_eq_of_lt h]

theorem takeBuffer_encode {buf : List Byte} (h : buf.length < 2 ^ 32) (rest : List Byte) :
    takeBuffer (encodeBuffer buf ++ rest) = .ok (buf, rest) := by
  simp only [takeBuffer, encodeBuffer, List.append_assoc, takeCount_encode h, bind, Except.bind]
  rw [if_neg (by simp)]; simp

/-! ### What a read operand stood in -/

theorem takeByte_ok {bs rest : List Byte} {b : Byte} (h : takeByte bs = .ok (b, rest)) : b :: rest = bs := by
  unfold takeByte at h; split at h <;> cases h; rfl

theorem takeBit_ok {bs rest : List Byte} {b : Bool} (h : takeBit bs = .ok (b, rest)) : encodeBit b ++ rest = bs := by
  unfold takeBit at h; split at h
  · cases h
  · split at h
    · rename_i hb; cases h; rw [hb]; rfl
    · split at h
      · rename_i hb; cases h; rw [hb]; rfl
      · cases h

theorem takeWord_ok {bs rest : List Byte} {v : Word} (h : takeWord bs = .ok (v, rest)) : bytesOfWord v ++ rest = bs := by
  unfold takeWord at h; split at h
  · cases h; rw [bytesOfWord_wordOfBytes]; rfl
  · cases h

theorem takeAddr_ok {bs rest : List Byte} {a : BitVec 9} (h : takeAddr bs = .ok (a, rest)) : encodeAddr a ++ rest = bs := by
  have h1 : ∀ b : Byte, encodeAddr (b.zeroExtend 9) = [b, 0] := by decide
  have h2 : ∀ b : Byte, encodeAddr (b.zeroExtend 9 ||| 0x100) = [b, 1] := by decide
  unfold takeAddr at h; split at h
  · split at h
    · rename_i hb; cases h; rw [hb, h1]; rfl
    · split at h
      · rename_i hb; cases h; rw [hb, h2]; rfl
      · cases h
  · cases h

theorem takeCount_ok {bs rest : List Byte} {n : Nat} (h : takeCount bs = .ok (n, rest)) :
    encodeCount n ++ rest = bs ∧ n < 2 ^ 32 := by
  unfold takeCount at h; split at h
  · rename_i v _ h'
    cases h
    refine ⟨?_, v.isLt⟩
    unfold encodeCount; rw [BitVec.ofNat_toNat, BitVec.setWidth_eq]; exact takeWord_ok h'
  · cases h

theorem takeBuffer_ok {bs rest buf : List Byte} (h : takeBuffer bs = .ok (buf, rest)) :
    encodeBuffer buf ++ rest = bs ∧ buf.length < 2 ^ 32 := by
  unfold takeBuffer at h
  simp only [bind, Except.bind] at h
  split at h
  · cases h
  rename_i v h1
  obtain ⟨l, b⟩ := v
  obtain ⟨e1, l1⟩ := takeCount_ok h1
  split at h
  · cases h
  rename_i g
  cases h
  have hl : (b.take l).length = l := by rw [List.length_take]; exact Nat.min_eq_left (Nat.le_of_not_lt g)
  refine ⟨?_, by rw [hl]; exact l1⟩
  unfold encodeBuffer; rw [hl, List.append_assoc, List.take_append_drop, e1]

/-- A decoding of two parts that succeeds succeeds in both. -/
theorem decoded_bind {α β : Type} {x : Except DecodeError α} {k : α → Except DecodeError β} {y : β}
    (h : (x >>= k) = .ok y) : ∃ a, x = .ok a ∧ k a = .ok y := by
  cases x with
  | error e => cases h
  | ok a => exact ⟨a, rfl, h⟩

end Sys2Proof
end

