-- ==== Sys2Proof/Laws/PerInstr.lean ====
section
/-! SUPPORT. Family TableWord: the encoder agrees with spec/opcode_table.json, row by row. -/

namespace Sys2Proof.Laws.TableWord
open Sys2Proof

/-- The columns `match` and `mask` of an instruction's row; the rows of DATA, TURN, TMSSEQ and SHIFT have none. -/
def row : Instr → Option (Byte × Byte)
  | .jtagReset => some (0x00, 0xFF)
  | .jtagNext _ _ => some (0x01, 0xFF)
  | .shiftTmsSequence _ _ => some (0x02, 0xFF)
  | .shiftData _ _ _ => some (0x03, 0xFF)
  | .shiftDataDiscardOutput _ _ _ => some (0x04, 0xFF)
  | .seqOut _ _ => some (0x08, 0xFF)
  | .seqOutWithParity _ _ => some (0x09, 0xFF)
  | .seqIn _ => some (0x0A, 0xFF)
  | .seqInWithParity _ => some (0x0B, 0xFF)
  | .setDelay _ => some (0x0C, 0xFF)
  | .lowAccess _ _ _ => some (0x10, 0xFF)
  | .dpRead _ => some (0x11, 0xFF)
  | .dpWrite _ _ => some (0x12, 0xFF)
  | .dpAbort _ => some (0x13, 0xFF)
  | .apRead _ _ => some (0x14, 0xFF)
  | .apWrite _ _ _ => some (0x15, 0xFF)
  | .dpAttach => some (0x16, 0xFF)
  | .faultRead => some (0x17, 0xFF)
  | .idcodeRead => some (0x18, 0xFF)
  | .targetidRead => some (0x19, 0xFF)
  | .reqDpWA0 => some (0x81, 0xFF)
  | .reqDpWA4 => some (0xA9, 0xFF)
  | .reqDpWA8 => some (0xB1, 0xFF)
  | .reqDpWAC => some (0x99, 0xFF)
  | .reqDpRA0 => some (0xA5, 0xFF)
  | .reqDpRA4 => some (0x8D, 0xFF)
  | .reqDpRA8 => some (0x95, 0xFF)
  | .reqDpRAC => some (0xBD, 0xFF)
  | .reqApWA0 => some (0xA3, 0xFF)
  | .reqApWA4 => some (0x8B, 0xFF)
  | .reqApWA8 => some (0x93, 0xFF)
  | .reqApWAC => some (0xBB, 0xFF)
  | .reqApRA0 => some (0x87, 0xFF)
  | .reqApRA4 => some (0xAF, 0xFF)
  | .reqApRA8 => some (0xB7, 0xFF)
  | .reqApRAC => some (0x9F, 0xFF)
  | .ackOk => some (0x01, 0x07)
  | .ackWait => some (0x02, 0x07)
  | .ackFault => some (0x04, 0x07)
  | .ackInvalid0 => some (0x00, 0x07)
  | .ackInvalid3 => some (0x03, 0x07)
  | .ackInvalid5 => some (0x05, 0x07)
  | .ackInvalid6 => some (0x06, 0x07)
  | .ackInvalid7 => some (0x07, 0x07)
  | .dataW _ => none
  | .dataR _ _ => none
  | .turn => none
  | .tmsseq _ _ => none
  | .shift _ _ _ => none

/-- The format of the row: whether it has a `match` at all, and how wide its mask is (30_encoding.md R61, R63, R70). -/
def maskOf : Format → Option Byte
  | .cmd | .req => some 0xFF
  | .ack => some 0x07
  | .dataW | .dataR | .turn | .tmsseq | .shift => none

/-- The first byte of the encoding, under the row's mask, is the row's `match`; a row without one is of a format that has no
fixed bits. -/
def Statement (i : Instr) : Prop :=
  match row i with
  | some (m, mask) => maskOf i.format = some mask ∧ ∃ b tail, encode i = b :: tail ∧ b &&& mask = m
  | none => maskOf i.format = none

theorem jtagReset : Statement .jtagReset := ⟨rfl, _, _, rfl, rfl⟩
theorem jtagNext (tms : Bool) (tdi : Bool) : Statement (.jtagNext tms tdi) := ⟨rfl, _, _, rfl, rfl⟩
theorem shiftTmsSequence (bits : Word) (count : Nat) : Statement (.shiftTmsSequence bits count) := ⟨rfl, _, _, rfl, rfl⟩
theorem shiftData (tdi : List Byte) (count : Nat) (finalTms : Bool) : Statement (.shiftData tdi count finalTms) := ⟨rfl, _, _, rfl, rfl⟩
theorem shiftDataDiscardOutput (tdi : List Byte) (count : Nat) (finalTms : Bool) : Statement (.shiftDataDiscardOutput tdi count finalTms) := ⟨rfl, _, _, rfl, rfl⟩
theorem seqOut (bits : Word) (count : Nat) : Statement (.seqOut bits count) := ⟨rfl, _, _, rfl, rfl⟩
theorem seqOutWithParity (value : Word) (count : Nat) : Statement (.seqOutWithParity value count) := ⟨rfl, _, _, rfl, rfl⟩
theorem seqIn (count : Nat) : Statement (.seqIn count) := ⟨rfl, _, _, rfl, rfl⟩
theorem seqInWithParity (count : Nat) : Statement (.seqInWithParity count) := ⟨rfl, _, _, rfl, rfl⟩
theorem setDelay (n : Word) : Statement (.setDelay n) := ⟨rfl, _, _, rfl, rfl⟩
theorem lowAccess (rnw : Bool) (addr : BitVec 9) (value : Word) : Statement (.lowAccess rnw addr value) := ⟨rfl, _, _, rfl, rfl⟩
theorem dpRead (addr : Byte) : Statement (.dpRead addr) := ⟨rfl, _, _, rfl, rfl⟩
theorem dpWrite (addr : Byte) (value : Word) : Statement (.dpWrite addr value) := ⟨rfl, _, _, rfl, rfl⟩
theorem dpAbort (value : Word) : Statement (.dpAbort value) := ⟨rfl, _, _, rfl, rfl⟩
theorem apRead (apsel : Byte) (addr : Byte) : Statement (.apRead apsel addr) := ⟨rfl, _, _, rfl, rfl⟩
theorem apWrite (apsel : Byte) (addr : Byte) (value : Word) : Statement (.apWrite apsel addr value) := ⟨rfl, _, _, rfl, rfl⟩
theorem dpAttach : Statement .dpAttach := ⟨rfl, _, _, rfl, rfl⟩
theorem faultRead : Statement .faultRead := ⟨rfl, _, _, rfl, rfl⟩
theorem idcodeRead : Statement .idcodeRead := ⟨rfl, _, _, rfl, rfl⟩
theorem targetidRead : Statement .targetidRead := ⟨rfl, _, _, rfl, rfl⟩
theorem reqDpWA0 : Statement .reqDpWA0 := ⟨rfl, _, _, rfl, rfl⟩
theorem reqDpWA4 : Statement .reqDpWA4 := ⟨rfl, _, _, rfl, rfl⟩
theorem reqDpWA8 : Statement .reqDpWA8 := ⟨rfl, _, _, rfl, rfl⟩
theorem reqDpWAC : Statement .reqDpWAC := ⟨rfl, _, _, rfl, rfl⟩
theorem reqDpRA0 : Statement .reqDpRA0 := ⟨rfl, _, _, rfl, rfl⟩
theorem reqDpRA4 : Statement .reqDpRA4 := ⟨rfl, _, _, rfl, rfl⟩
theorem reqDpRA8 : Statement .reqDpRA8 := ⟨rfl, _, _, rfl, rfl⟩
theorem reqDpRAC : Statement .reqDpRAC := ⟨rfl, _, _, rfl, rfl⟩
theorem reqApWA0 : Statement .reqApWA0 := ⟨rfl, _, _, rfl, rfl⟩
theorem reqApWA4 : Statement .reqApWA4 := ⟨rfl, _, _, rfl, rfl⟩
theorem reqApWA8 : Statement .reqApWA8 := ⟨rfl, _, _, rfl, rfl⟩
theorem reqApWAC : Statement .reqApWAC := ⟨rfl, _, _, rfl, rfl⟩
theorem reqApRA0 : Statement .reqApRA0 := ⟨rfl, _, _, rfl, rfl⟩
theorem reqApRA4 : Statement .reqApRA4 := ⟨rfl, _, _, rfl, rfl⟩
theorem reqApRA8 : Statement .reqApRA8 := ⟨rfl, _, _, rfl, rfl⟩
theorem reqApRAC : Statement .reqApRAC := ⟨rfl, _, _, rfl, rfl⟩
theorem ackOk : Statement .ackOk := ⟨rfl, _, _, rfl, rfl⟩
theorem ackWait : Statement .ackWait := ⟨rfl, _, _, rfl, rfl⟩
theorem ackFault : Statement .ackFault := ⟨rfl, _, _, rfl, rfl⟩
theorem ackInvalid0 : Statement .ackInvalid0 := ⟨rfl, _, _, rfl, rfl⟩
theorem ackInvalid3 : Statement .ackInvalid3 := ⟨rfl, _, _, rfl, rfl⟩
theorem ackInvalid5 : Statement .ackInvalid5 := ⟨rfl, _, _, rfl, rfl⟩
theorem ackInvalid6 : Statement .ackInvalid6 := ⟨rfl, _, _, rfl, rfl⟩
theorem ackInvalid7 : Statement .ackInvalid7 := ⟨rfl, _, _, rfl, rfl⟩
theorem dataW (data : Word) : Statement (.dataW data) := rfl
theorem dataR (data : Word) (par : Bool) : Statement (.dataR data par) := rfl
theorem turn : Statement .turn := rfl
theorem tmsseq (bits : Word) (count : Nat) : Statement (.tmsseq bits count) := rfl
theorem shift (tdi : List Byte) (count : Nat) (finalTms : Bool) : Statement (.shift tdi count finalTms) := rfl

end Sys2Proof.Laws.TableWord
end

