-- ==== Sys2Proof/Tests/Slice0.lean ====
section
/-! SUPPORT. The model's own tests: ill-formed terms, decoded words, one step of each instruction, and for each statement
with hypotheses a witness that meets them. Expected values are those of 95_test_vectors.md (V<n>, the rows of P<n>), or
worked out by hand from the rule named. -/

namespace Sys2Proof.Tests
open Sys2Proof Sys2Proof.Machine Sys2Proof.Safety

/-! ### Helpers -/

/-- `RETRY_BOUND` 4, `HAS_TRST`, `DELAY_RESET` 0, `DP_V2`, `JTAG_SHIFT_MAX` 100. -/
def cfg : Params := Config.paramsOver ⟨3, true, 0, true, 99⟩

/-- The same without a TRST line and with `DP_V2` false. -/
def cfg1 : Params := Config.paramsOver ⟨3, false, 0, false, 99⟩

/-- An idle block with the line in a direction, `delay_count` 0, and these target answers. -/
def line (dir : Dir) (answers : List Bool) : State :=
  { State.reset with
    delayCount := 0, tapShadow := .runTestIdle, swdDir := dir, swdioOe := decide (dir = .drive)
    swdioIn := ⟨answers, 0⟩, tdo := ⟨answers, 0⟩ }

/-- The answers OK, WAIT, FAULT in wire order (95_test_vectors.md, conventions). -/
def okA : List Bool := [true, false, false]
def waitA : List Bool := [false, true, false]
def faultA : List Bool := [false, false, true]

/-- The bits the block wrote to SWDIO_OUT. -/
def outs (t : List PinEvent) : List Bool :=
  t.filterMap fun e => match e with
    | .write .swdioOut b => some b
    | _ => none

/-- The TMS and TDI levels of a trace. -/
def tmsOf (t : List PinEvent) : List Bool :=
  t.filterMap fun e => match e with
    | .write .tms b => some b
    | _ => none
def tdiOf (t : List PinEvent) : List Bool :=
  t.filterMap fun e => match e with
    | .write .tdi b => some b
    | _ => none

/-- The mode changes of a trace. -/
def modes (t : List PinEvent) : List Dir :=
  t.filterMap fun e => match e with
    | .mode d => some d
    | _ => none

theorem line_consistent (dir : Dir) (answers : List Bool) : Consistent (line dir answers) := by
  cases dir <;> constructor <;> simp [line, State.reset]

/-- A command at an idle block ends. -/
theorem ends {i : Instr} {s : State} (hf : i.format = .cmd) (h : s.phase = .idle) : ∃ t, exec i s = .next t :=
  ⟨_, (exec_command hf s).trans (runCommand_idle _ h)⟩

theorem one_try : 0 < Config.params.retryBound := Nat.succ_pos _

theorem last_try : Config.params.retryBound - 1 < Config.params.retryBound := Nat.lt_succ_self _

/-! ### WellFormed refuses ill-formed terms -/

theorem test_illformed_count :
    (Instr.shiftTmsSequence 0 (2 ^ 32)).wellFormed = false ∧ (Instr.seqOut 0 (2 ^ 32)).wellFormed = false
    ∧ (Instr.seqOutWithParity 0 (2 ^ 32)).wellFormed = false ∧ (Instr.seqIn (2 ^ 32)).wellFormed = false
    ∧ (Instr.seqInWithParity (2 ^ 32)).wellFormed = false := by decide

/-- A string on the wire has at least one cycle and carries a TDI bit for each. -/
theorem test_illformed_wire_length :
    (Instr.shift [0xFF, 0] 17 true).wellFormed = false ∧ (Instr.shift [] 1 true).wellFormed = false ∧
    (Instr.tmsseq 0 33).wellFormed = false ∧ (Instr.shift [] 0 true).wellFormed = false := by decide

/-- A buffer whose length does not fit four bytes. -/
theorem test_illformed_long_buffer (tdi : List Byte) (h : 2 ^ 32 ≤ tdi.length) :
    (Instr.shiftData tdi 1 true).wellFormed = false := by
  simp only [Instr.wellFormed, bufferFits, Bool.and_eq_false_iff, decide_eq_false_iff_not]
  omega

/-- In range or out of a command's own range, a term that can be presented is well formed (R73 (c)), also with a buffer
shorter than its count (log 31). -/
theorem test_wellformed : (Instr.seqIn 33).wellFormed = true ∧ (Instr.shiftData [0xA5, 0x02] 10 true).wellFormed = true
    ∧ (Instr.tmsseq 0 32).wellFormed = true ∧ (Instr.shiftData [0xFF] 9 true).wellFormed = true
    ∧ (Instr.shiftDataDiscardOutput [] 1000 true).wellFormed = true := by decide

/-! ### Decoding words written out from 30_encoding.md R62, R63, R64, R67, R70 -/

theorem test_decode_jtag :
    decode .cmd [0x00] = .ok (.jtagReset, [])
    ∧ decode .cmd [0x01, 1, 0] = .ok (.jtagNext true false, [])
    ∧ decode .cmd [0x02, 0x0D, 0, 0, 0, 4, 0, 0, 0] = .ok (.shiftTmsSequence 0x0D 4, [])
    ∧ decode .cmd [0x03, 2, 0, 0, 0, 0xA5, 0x02, 10, 0, 0, 0, 1] = .ok (.shiftData [0xA5, 0x02] 10 true, [])
    ∧ decode .cmd [0x04, 1, 0, 0, 0, 0xFF, 8, 0, 0, 0, 0] = .ok (.shiftDataDiscardOutput [0xFF] 8 false, []) := by decide

theorem test_decode_swd :
    decode .cmd [0x08, 0xA5, 0, 0, 0, 8, 0, 0, 0] = .ok (.seqOut 0xA5 8, [])
    ∧ decode .cmd [0x09, 0x1E, 0, 0, 0x80, 32, 0, 0, 0] = .ok (.seqOutWithParity 0x8000001E 32, [])
    ∧ decode .cmd [0x0A, 3, 0, 0, 0] = .ok (.seqIn 3, [])
    ∧ decode .cmd [0x0B, 32, 0, 0, 0] = .ok (.seqInWithParity 32, [])
    ∧ decode .cmd [0x0C, 0x78, 0x56, 0x34, 0x12] = .ok (.setDelay 0x12345678, []) := by decide

theorem test_decode_sequencer :
    decode .cmd [0x10, 1, 0xFC, 1, 4, 3, 2, 1] = .ok (.lowAccess true 0x1FC 0x01020304, [])
    ∧ decode .cmd [0x11, 0x24] = .ok (.dpRead 0x24, [])
    ∧ decode .cmd [0x12, 0x04, 0, 0, 0, 0x50] = .ok (.dpWrite 0x04 0x50000000, [])
    ∧ decode .cmd [0x13, 0x1E, 0, 0, 0] = .ok (.dpAbort 0x1E, [])
    ∧ decode .cmd [0x14, 0x01, 0xFC] = .ok (.apRead 1 0xFC, [])
    ∧ decode .cmd [0x15, 0x01, 0x04, 0, 0, 0, 0x20] = .ok (.apWrite 1 0x04 0x20000000, [])
    ∧ decode .cmd [0x16] = .ok (.dpAttach, []) ∧ decode .cmd [0x17] = .ok (.faultRead, [])
    ∧ decode .cmd [0x18] = .ok (.idcodeRead, []) ∧ decode .cmd [0x19] = .ok (.targetidRead, []) := by decide

/-- The table of R62 (V30). -/
theorem test_decode_requests :
    decode .req [0x81] = .ok (.reqDpWA0, []) ∧ decode .req [0xA9] = .ok (.reqDpWA4, [])
    ∧ decode .req [0xB1] = .ok (.reqDpWA8, []) ∧ decode .req [0x99] = .ok (.reqDpWAC, [])
    ∧ decode .req [0xA5] = .ok (.reqDpRA0, []) ∧ decode .req [0x8D] = .ok (.reqDpRA4, [])
    ∧ decode .req [0x95] = .ok (.reqDpRA8, []) ∧ decode .req [0xBD] = .ok (.reqDpRAC, []) := by decide

/-- The same for the access port half of the table. -/
theorem test_decode_requests_ap :
    decode .req [0xA3] = .ok (.reqApWA0, []) ∧ decode .req [0x8B] = .ok (.reqApWA4, [])
    ∧ decode .req [0x93] = .ok (.reqApWA8, []) ∧ decode .req [0xBB] = .ok (.reqApWAC, [])
    ∧ decode .req [0x87] = .ok (.reqApRA0, []) ∧ decode .req [0xAF] = .ok (.reqApRA4, [])
    ∧ decode .req [0xB7] = .ok (.reqApRA8, []) ∧ decode .req [0x9F] = .ok (.reqApRAC, []) := by decide

/-- V31: 1 OK, 2 WAIT, 4 FAULT, the others no name. -/
theorem test_decode_acks :
    decode .ack [1] = .ok (.ackOk, []) ∧ decode .ack [2] = .ok (.ackWait, []) ∧ decode .ack [4] = .ok (.ackFault, [])
    ∧ decode .ack [0] = .ok (.ackInvalid0, []) ∧ decode .ack [3] = .ok (.ackInvalid3, [])
    ∧ decode .ack [5] = .ok (.ackInvalid5, []) ∧ decode .ack [6] = .ok (.ackInvalid6, [])
    ∧ decode .ack [7] = .ok (.ackInvalid7, []) := by decide

theorem test_decode_wire :
    decode .dataW [0x01, 0, 0, 0, 1] = .ok (.dataW 1, [])
    ∧ decode .dataR [0x77, 0x14, 0xA0, 0x2B, 1] = .ok (.dataR 0x2BA01477 true, [])
    ∧ decode .turn [] = .ok (.turn, [])
    ∧ decode .tmsseq [0x02, 0, 0, 0, 4, 0, 0, 0] = .ok (.tmsseq 2 4, [])
    ∧ decode .shift [1, 0, 0, 0, 0x01, 1, 0, 0, 0, 1] = .ok (.shift [0x01] 1 true, []) := by decide

/-- V55, R64, R67, R73: what is rejected, by name. -/
theorem test_decode_rejects :
    decode .cmd [0x05] = .error .badCommand ∧ decode .cmd [0x1A] = .error .badCommand
    ∧ decode .req [0x80] = .error .notARequest ∧ decode .req [0x85] = .error .notARequest
    ∧ decode .ack [8] = .error .notAnAck ∧ decode .dataW [0x01, 0, 0, 0, 0] = .error .badParity
    ∧ decode .cmd [0x0A, 3, 0] = .error .truncated ∧ decode .cmd [0x01, 2, 0] = .error .badOperand
    ∧ decode .cmd [0x03, 2, 0, 0, 0, 0xFF] = .error .truncated
    ∧ decode .shift [1, 0, 0, 0, 0xFF, 9, 0, 0, 0, 1] = .error .badLength
    ∧ decode .tmsseq [0, 0, 0, 0, 33, 0, 0, 0] = .error .badLength :=
  ⟨rfl, rfl, rfl, rfl, rfl, rfl, rfl, rfl, rfl, rfl, rfl⟩

/-- Table words: a command code, a request, an acknowledge, a data phase, and the collision of log 3. -/
theorem test_table_words :
    decodeTableWord 8 0x0A = some (.seqIn 0) ∧ decodeTableWord 8 0x14 = some (.apRead 0 0)
    ∧ decodeTableWord 8 0xB1 = some .reqDpWA8 ∧ decodeTableWord 8 0x05 = some .ackInvalid5
    ∧ decodeTableWord 8 0x02 = some (.shiftTmsSequence 0 0) ∧ decodeTableWord 3 0x02 = some .ackWait
    ∧ decodeTableWord 40 0x100000001 = some (.dataW 1) ∧ decodeTableWord 40 1 = some (.dataR 1 false)
    ∧ decodeTableWord 0 0 = some .turn := by decide

/-- `withFetchWord` presents the word's packet to an idle block, and the next step runs it. -/
theorem test_withFetchWord :
    step (State.reset.withFetchWord 8 0x17) = exec .faultRead State.reset
    ∧ step (State.reset.withFetchWord 8 0xA5) = exec .reqDpRA0 State.reset := ⟨rfl, rfl⟩

/-! ### One step of each instruction -/

/-- V1 with `delay_count` 0. -/
theorem test_jtagNext :
    let r := jtagNext true false (line .float [true])
    r.1 = true ∧ r.2.trace = [.write .tms true, .write .tdi false, .write .tck true, .sample .tdo true, .write .tck false]
      ∧ r.2.tms = true ∧ r.2.tdi = false ∧ r.2.tck = false := by decide

/-- V1 with `delay_count` 5. -/
theorem test_jtagNext_delay :
    (jtagNext true false { line .float [true] with delayCount := 5 }).2.trace =
      [.write .tms true, .write .tdi false, .write .tck true, .delay, .sample .tdo true, .write .tck false, .delay] := by
  decide

/-- V2. -/
theorem test_shiftTmsSequence :
    let r := shiftTmsSequence 0x0D 4 (line .float [false, true, false, true])
    r.1 = .ok .nothing ∧ tmsOf r.2.trace = [true, false, true, true] ∧ tdiOf r.2.trace = [true, true, true, true]
      ∧ tckCycles r.2.trace = 4 := by decide

/-- V3. -/
theorem test_shiftTmsSequence_edges :
    shiftTmsSequence 0xFFFFFFFF 0 (line .float []) = (.ok .nothing, line .float [])
    ∧ shiftTmsSequence 0 33 (line .float []) = (.refused .badCount, line .float []) := ⟨rfl, rfl⟩

/-- V5. -/
theorem test_shiftData :
    let r := shiftData cfg [0xA5, 0x02] 10 true
      (line .float [false, true, false, false, true, true, false, true, true, false])
    r.1 = .ok (.buffer [0xB2, 0x01])
      ∧ tdiOf r.2.trace = [true, false, true, false, false, true, false, true, false, true]
      ∧ tmsOf r.2.trace = [false, false, false, false, false, false, false, false, false, true] := by decide

/-- V6. -/
theorem test_shiftData_edges :
    (shiftData cfg [0x01] 0 true (line .float [])).1 = .refused .badCount
    ∧ (shiftData cfg [0x01] 101 true (line .float [])).1 = .refused .badCount
    ∧ tmsOf (shiftData cfg [0x01] 1 true (line .float [false])).2.trace = [true] := by decide

/-- R87, R184: a count out of range is refused whatever the buffer holds. R82: of a short buffer in range the bits it holds
are sent (the levels past its end: log 31). -/
theorem test_shiftData_shortBuffer :
    decode .cmd [0x03, 1, 0, 0, 0, 0xA5, 101, 0, 0, 0, 1] = .ok (.shiftData [0xA5] 101 true, [])
    ∧ shiftData cfg [0xA5] 101 true (line .float []) = (.refused .badCount, line .float [])
    ∧ tdiOf (shiftData cfg [0xA5] 10 true (line .float [])).2.trace =
      [true, false, true, false, false, true, false, true, Config.freeTdiLevel 0 8, Config.freeTdiLevel 0 9] :=
  ⟨rfl, rfl, rfl⟩

/-- R54, R85: one buffer for both. R82's example, whose byte's upper bits end 0; and across a byte boundary V5's bits. -/
theorem test_shiftData_inPlace :
    (clockDataInPlace true 4 [0xF5] (line .float [true, true, false, false])).1 = [0x03]
    ∧ (clockDataInPlace true 10 [0xA5, 0xFE, 0x77]
      (line .float [false, true, false, false, true, true, false, true, true, false])).1 = [0xB2, 0x01, 0x77] := by decide

/-- V7. -/
theorem test_shiftDataDiscardOutput :
    let q := [true, false, true, false, true, false, true, false]
    let r := shiftDataDiscardOutput cfg [0xFF] 8 true (line .float q)
    r.1 = .ok .nothing ∧ r.2 = (shiftData cfg [0xFF] 8 true (line .float q)).2 := by decide

/-- V8 and V9, from Pause-IR. -/
theorem test_jtagReset :
    let s := { line .float [false, false, false, false, false, false] with tapShadow := .pauseIr }
    let r := jtagReset cfg s
    r.1 = .ok .nothing ∧ r.2.trace.take 2 = [.write .trst false, .write .trst true] ∧ tckCycles r.2.trace = 6
      ∧ r.2.tapShadow = .testLogicReset ∧ tckCycles (jtagReset cfg1 s).2.trace = 6
      ∧ (jtagReset cfg1 s).2.trace.length = 30 := by decide

/-- V9: TMS 0, 1, 0, 0 leads from Test-Logic-Reset to Shift-DR. -/
theorem test_tap_walk :
    [false, true, false, false].foldl tapNext .testLogicReset = .shiftDr
    ∧ [true, true, false].foldl tapNext .shiftDr = .runTestIdle := by decide

/-- V10. -/
theorem test_seqOut :
    let r := seqOut 0xA5 8 (line .float [])
    r.2.trace.take 4 = [.write .swclk true, .write .swclk false, .mode .drive, .write .swdioOut true]
      ∧ outs r.2.trace = [true, false, true, false, false, true, false, true] ∧ swclkCycles r.2.trace = 9
      ∧ r.2.swdDir = .drive ∧ swclkCycles (seqOut 0xA5 8 (line .drive [])).2.trace = 8 := by decide

/-- V16 and V17. -/
theorem test_seqOut_edges :
    (seqOut 5 0 (line .float [])).2.trace = [.write .swclk true, .write .swclk false, .mode .drive]
    ∧ seqOut 5 33 (line .float []) = (.refused .badCount, line .float []) := ⟨rfl, rfl⟩

/-- V15: bit 8 of the operand is counted though not sent. -/
theorem test_seqOutWithParity :
    outs (seqOutWithParity 0x00000100 8 (line .drive [])).2.trace =
      [false, false, false, false, false, false, false, false, true]
    ∧ swclkCycles (seqOutWithParity 0x1E 32 (line .drive [])).2.trace = 33 := by decide +kernel

/-- V11. -/
theorem test_seqIn :
    let r := seqIn 3 (line .drive okA)
    r.1 = .ok (.word 1)
      ∧ r.2.trace = [.mode .float, .write .swclk true, .write .swclk false,
        .sample .swdioIn true, .write .swclk true, .write .swclk false,
        .sample .swdioIn false, .write .swclk true, .write .swclk false,
        .sample .swdioIn false, .write .swclk true, .write .swclk false]
      ∧ r.2.swdDir = .float := by decide

/-- V12: the second of two calls floats nothing. -/
theorem test_seqIn_again :
    let r := seqIn 3 (seqIn 3 (line .drive (okA ++ waitA))).2
    r.1 = .ok (.word 2) ∧ modes r.2.trace = [.float] ∧ swclkCycles r.2.trace = 7 := by decide

/-- V14. -/
theorem test_seqInWithParity :
    let r := seqInWithParity 32 (line .drive (bitsOf (0x2BA01477 : Word) 32 ++ [false]))
    r.1 = .ok (.wordParity 0x2BA01477 true) ∧ swclkCycles r.2.trace = 35 ∧ modes r.2.trace = [.float, .drive]
      ∧ r.2.swdDir = .drive := by decide +kernel

/-- V16: parity of the empty word against a received 1. -/
theorem test_seqInWithParity_empty :
    let r := seqInWithParity 0 (line .drive [true])
    r.1 = .ok (.wordParity 0 false) ∧ swclkCycles r.2.trace = 3 := by decide

/-- V19. -/
theorem test_setDelay :
    (setDelay 1 (line .float [])).2.delayCount = 1
    ∧ (seqOut 1 1 (setDelay 1 (line .float [])).2).2.trace =
      [.write .swclk true, .delay, .write .swclk false, .delay, .mode .drive,
        .write .swdioOut true, .write .swclk true, .delay, .write .swclk false, .delay] := by decide

/-- V20. -/
theorem test_parity :
    [0x00000000, 0x00000001, 0x80000000, 0xFFFFFFFF, 0x1E, 0x20000000, 0x2BA01477, 0x6BA02477, 0xF0000040].map
      (fun v => parity (BitVec.ofNat 32 v)) = [false, true, true, false, false, true, false, true, true] := by decide

/-- V50, N = 1 and N = 3 of `RETRY_BOUND` 4. -/
theorem test_lowAccess_read :
    let r := lowAccess cfg true 0 0 (line .drive (waitA ++ waitA ++ okA ++ bitsOf (0x2BA01477 : Word) 32 ++ [false]))
    r.1 = .ok (.word 0x2BA01477) ∧ r.2.tries = 3 ∧ swclkCycles r.2.trace = 72 ∧ r.2.swdDir = .drive := by decide +kernel

/-- V51. -/
theorem test_lowAccess_write :
    let r := lowAccess cfg false 0x004 0xDEADBEEF (line .drive (waitA ++ okA))
    r.1 = .ok .nothing ∧ swclkCycles r.2.trace = 59
      ∧ outs r.2.trace = bitsOf (0xA9 : Byte) 8 ++ bitsOf (0xA9 : Byte) 8 ++ bitsOf (0xDEADBEEF : Word) 32 ++ [false] := by
  decide +kernel

/-- V50 with more WAITs than tries; V52; V53; V54. -/
theorem test_lowAccess_ends :
    (lowAccess cfg true 0 0 (line .drive (waitA ++ waitA ++ waitA ++ waitA ++ okA))).1 = .waitTimeout
    ∧ swclkCycles (lowAccess cfg true 0 0 (line .drive (waitA ++ waitA ++ waitA ++ waitA ++ okA))).2.trace = 51
    ∧ (lowAccess cfg true 4 0 (line .drive (waitA ++ faultA))).1 = .protocolFault
    ∧ (lowAccess cfg true 4 0 (line .drive (waitA ++ faultA))).2.fault = true
    ∧ (lowAccess cfg true 0 0 (line .drive [true, true, true])).1 = .invalidAck 7
    ∧ (lowAccess cfg true 0 0 (line .drive (okA ++ bitsOf (0x2BA01477 : Word) 32 ++ [true]))).1 = .parityError 0x2BA01477
    := by decide +kernel

/-- V55. -/
theorem test_refused_address :
    (lowAccess cfg true 0x001 0 (line .drive [])).1 = .refused .badAddress
    ∧ (dpRead cfg 0x06 (line .drive [])).1 = .refused .badAddress
    ∧ (apWrite cfg 0 0x03 1 (line .drive [])).1 = .refused .badAddress := by decide

/-- P1 row 6 (bank tracked) and V56 step 7 (nothing tracked). -/
theorem test_dpRead :
    let t := { line .drive (okA ++ bitsOf (0xF0000040 : Word) 32 ++ [true]) with selValid := true }
    (dpRead cfg 0x04 t).1 = .ok (.word 0xF0000040) ∧ outs (dpRead cfg 0x04 t).2.trace = bitsOf (0x8D : Byte) 8
    ∧ outs (dpRead cfg 0x04 (line .drive (okA ++ okA ++ bitsOf (0 : Word) 32 ++ [false]))).2.trace =
        bitsOf (0xB1 : Byte) 8 ++ bitsOf (0 : Word) 32 ++ [false] ++ bitsOf (0x8D : Byte) 8 := by decide +kernel

/-- V56 steps 3 and 5. -/
theorem test_dpRead_bank :
    let t := { line .drive (okA ++ okA ++ bitsOf (0 : Word) 32 ++ [false]) with selValid := true, selApbank := 15 }
    let u := { line .drive faultA with selValid := true, selApsel := 1, selDpbank := 2 }
    (dpRead cfg 0x24 t).2.wdata = 0x000000F2 ∧ (dpRead cfg 0x24 t).2.selDpbank = 2
    ∧ (dpRead cfg 0x04 u).1 = .protocolFault ∧ (dpRead cfg 0x04 u).2.wdata = 0
    ∧ (dpRead cfg 0x04 u).2.selValid = false ∧ outs (dpRead cfg 0x04 u).2.trace = bitsOf (0xB1 : Byte) 8 := by decide +kernel

/-- V57 and P1 row 5. -/
theorem test_dpWrite :
    let r := dpWrite cfg 0x08 0x010000F2 (line .float okA)
    r.1 = .ok .nothing ∧ r.2.req = 0xB1 ∧ r.2.tries = 1 ∧ r.2.selValid = true ∧ r.2.selApsel = 1 ∧ r.2.selApbank = 15
    ∧ r.2.selDpbank = 2
    ∧ (dpWrite cfg 0x04 0x50000000 (line .drive (okA ++ okA))).2.req = 0xA9 := by decide +kernel

/-- P2 row 4. -/
theorem test_dpAbort :
    let r := dpAbort cfg 0x1E { line .float okA with fault := true }
    r.1 = .ok .nothing ∧ r.2.fault = false ∧ r.2.req = 0x81 ∧ r.2.wdata = 0x1E ∧ swclkCycles r.2.trace = 47 := by decide +kernel

/-- V56 step 1. -/
theorem test_apRead :
    let r := apRead cfg 0 0xFC (line .float (okA ++ okA ++ bitsOf (0x11223344 : Word) 32 ++ [false]))
    r.1 = .ok (.word 0x11223344) ∧ r.2.wdata = 0x000000F0 ∧ r.2.req = 0x9F ∧ r.2.selApbank = 15 := by decide +kernel

/-- V56 step 4. -/
theorem test_apWrite :
    let r := apWrite cfg 1 0x04 0x20000000
      { line .drive (okA ++ okA) with selValid := true, selApbank := 15, selDpbank := 2 }
    r.1 = .ok .nothing ∧ outs r.2.trace = bitsOf (0xB1 : Byte) 8 ++ bitsOf (0x01000002 : Word) 32 ++ [false]
      ++ bitsOf (0x8B : Byte) 8 ++ bitsOf (0x20000000 : Word) 32 ++ [true] := by decide +kernel

/-- V58. -/
theorem test_dpAttach :
    let q := okA ++ bitsOf (0x2BA01477 : Word) 32 ++ [false] ++ okA ++ okA ++ bitsOf (0x01002927 : Word) 32 ++ [false]
    let r := dpAttach cfg (line .float q)
    r.1 = .ok .nothing ∧ r.2.idcode = some 0x2BA01477 ∧ r.2.targetid = some 0x01002927 ∧ r.2.selDpbank = 2 := by decide +kernel

/-- V58 with `DP_V2` false, and with FAULT to the first request. -/
theorem test_dpAttach_ends :
    let q := okA ++ bitsOf (0x2BA01477 : Word) 32 ++ [false]
    (dpAttach cfg1 (line .float q)).2.targetid = none ∧ swclkCycles (dpAttach cfg1 (line .float q)).2.trace = 47
    ∧ (dpAttach cfg (line .float faultA)).1 = .protocolFault ∧ (dpAttach cfg (line .float faultA)).2.fault = true
    ∧ (dpAttach cfg (line .float faultA)).2.idcode = none := by decide +kernel

/-- V55, R155. -/
theorem test_reads :
    (faultRead { line .drive [] with fault := true }).1 = .ok (.bit true)
    ∧ (readRegister none (line .drive [])).1 = .refused .noValue
    ∧ (readRegister (some 7) (line .drive [])).1 = .ok (.word 7) := by decide

/-- The flush read is `dp_read(0x0C)` (R74, R149; P3 row 3). -/
theorem test_flushRead :
    let t := { line .drive (okA ++ bitsOf (0x410FC241 : Word) 32 ++ [true]) with selValid := true }
    (flushRead cfg t).1 = .ok (.word 0x410FC241) ∧ (flushRead cfg t).2.req = 0xBD := by decide

/-- R62: each request puts its byte on the wire. -/
theorem test_requests :
    [requestStep false false 0, requestStep false false 1, requestStep false false 2, requestStep false false 3,
      requestStep false true 0, requestStep false true 1, requestStep false true 2, requestStep false true 3,
      requestStep true false 0, requestStep true false 1, requestStep true false 2, requestStep true false 3,
      requestStep true true 0, requestStep true true 1, requestStep true true 2, requestStep true true 3].map
        (fun f => outs (f (line .drive [])).trace)
      = [0x81, 0xA9, 0xB1, 0x99, 0xA5, 0x8D, 0x95, 0xBD, 0xA3, 0x8B, 0x93, 0xBB, 0x87, 0xAF, 0xB7, 0x9F].map
        (fun b => bitsOf (BitVec.ofNat 8 b) 8) := by decide

/-- Row S_REQ of R141. -/
theorem test_request_phase :
    (requestStep false true 0 { line .drive [] with phase := .req, tries := 2 }).phase = .ack
    ∧ (requestStep false true 0 { line .drive [] with phase := .req, tries := 2 }).tries = 3 := by decide

/-- Row S_ACK of R141, for OK on a read and on a write, FAULT, and the invalid values. -/
theorem test_ack_phase :
    (ackStep 1 { line .drive [] with phase := .ack, req := 0xA5 }).phase = .rdata
    ∧ (ackStep 1 { line .drive [] with phase := .ack, req := 0xA9 }).phase = .wdata
    ∧ (ackStep 4 { line .drive [] with phase := .ack }).phase = .done
    ∧ (ackStep 4 { line .drive [] with phase := .ack }).fault = true
    ∧ [0, 3, 5, 6, 7].map (fun v => (ackStep (BitVec.ofNat 3 v) { line .drive [] with phase := .ack }).phase)
      = [.done, .done, .done, .done, .done]
    ∧ (ackStep 6 { line .drive [] with phase := .ack }).ack = 6 := by decide

/-- Row S_ACK of R141 for WAIT, with and without a try left. -/
theorem test_ack_wait :
    (leaveAck cfg { line .drive [] with phase := .ack, ack := 2, tries := 3 }).phase = .req
    ∧ (leaveAck cfg { line .drive [] with phase := .ack, ack := 2, tries := 4 }).phase = .done := by decide

/-- V32: the data phase of the write. -/
theorem test_dataW :
    let t := dataWStep 0x50000000 { line .float [] with phase := .wdata }
    outs t.trace = bitsOf (0x50000000 : Word) 32 ++ [false] ∧ swclkCycles t.trace = 34 ∧ t.phase = .done
      ∧ t.swdDir = .drive := by decide +kernel

/-- V33: the data phase of the read; V54: a wrong parity bit. -/
theorem test_dataR :
    let t := dataRStep 0x2BA01477 false { line .float [] with phase := .rdata }
    t.rdata = 0x2BA01477 ∧ t.pok = true ∧ swclkCycles t.trace = 34 ∧ t.phase = .done
      ∧ (dataRStep 0x2BA01477 true (line .float [])).pok = false := by decide +kernel

/-- R103, V16: one cycle, the line released before it and taken after it. -/
theorem test_turn :
    (turnLine (line .drive [])).trace = [.mode .float, .write .swclk true, .write .swclk false]
    ∧ (turnLine (line .float [])).trace = [.write .swclk true, .write .swclk false, .mode .drive]
    ∧ (turnLine (line .drive [])).swdDir = .float ∧ (turnLine (line .float [])).swdDir = .drive := by
  decide

/-- R67: P4 row 2 and V6 as wire formats. -/
theorem test_wire_formats :
    exec (.tmsseq 2 4) (line .float [true, true, true, true])
      = .next (clockTms [false, true, false, false] (line .float [true, true, true, true]))
    ∧ exec (.shift [0x01] 1 true) (line .float [true]) = .next (jtagNext true true (line .float [true])).2 := ⟨rfl, rfl⟩

/-! ### Witnesses: for each statement with hypotheses, a state and operands that meet them all -/

theorem witness_DecodeOfEncode :
    (Instr.shiftData [0xA5, 0x02] 16 true).wellFormed = true ∧ (Instr.shift [0x01] 1 true).wellFormed = true
    ∧ (Instr.tmsseq 5 32).wellFormed = true ∧ (Instr.seqIn (2 ^ 32 - 1)).wellFormed = true := by decide

theorem witness_DecodedIsEncoded : decode .cmd [0x0A, 3, 0, 0, 0, 9] = .ok (.seqIn 3, [9]) := by decide

/-- What R205 says holds at an idle block with no access made, whatever it drives. -/
theorem line_between (dir : Dir) (answers : List Bool) : BetweenCommands (line dir answers) :=
  ⟨line_consistent _ _, rfl, fun _ => ⟨rfl, rfl, rfl, fun _ h => (nomatch h)⟩, fun _ h => (nomatch h), fun _ h => (nomatch h),
    fun h => (nomatch h), fun h => (nomatch h)⟩

/-- A state with one access made, which wrote 0x010000F2 to SELECT. -/
def tracking : State :=
  { line .drive [] with
    tries := 1, selValid := true, selApsel := 1, selApbank := 15, selDpbank := 2
    trace := writeTransaction (delayEvents 0) 0xB1 0x010000F2 }

theorem tracking_tracked : Tracked tracking := fun _ => ⟨0x010000F2, 0, rfl, rfl, rfl, List.infix_rfl⟩

theorem tracking_between : BetweenCommands tracking := by
  refine ⟨?_, rfl, fun h => (nomatch h), fun _ h => (nomatch h), fun _ h => (nomatch h), tracking_tracked, fun h => (nomatch h)⟩
  constructor <;> simp [tracking, line, State.reset]
  exact one_try

/-- A block in S_REQ with no try made, one with a command presented, and one that is idle; a command that makes an access and
one that makes none. -/
theorem witness_StepKeepsConsistency :
    (∃ t, exec (.dpAbort 0) (line .float okA) = .next t) ∧ MakesAccess (.dpAbort 0)
    ∧ (∃ t, exec (.setDelay 1) (line .float okA) = .next t) ∧ ¬MakesAccess (.setDelay 1)
    ∧ BetweenCommands (line .drive okA) ∧ BetweenCommands tracking ∧ Consistent State.reset
    ∧ step { State.reset with port := [⟨.cmd, [0x17]⟩] } = .next { State.reset with outcomes := [.ok (.bit false)] }
    ∧ ∃ t, step { State.reset with phase := .req } = .next t := by
  refine ⟨ends rfl rfl, by simp [MakesAccess], ends rfl rfl, by simp [MakesAccess], line_between _ _, tracking_between, by constructor <;> simp [State.reset], rfl, _, rfl⟩

theorem witness_StepRunsDecoded :
    decode .cmd [0x0A, 3, 0, 0, 0, 9] = .ok (.seqIn 3, [9])
    ∧ ({ State.reset with port := [⟨.cmd, [0x0A, 3, 0, 0, 0, 9]⟩] } : State).port = ⟨.cmd, [0x0A, 3, 0, 0, 0, 9]⟩ :: []
    ∧ State.reset.port = [] ∧ State.reset.phase = .idle := by decide

theorem witness_UnknownCodeRefused :
    ∀ op ∈ [0x05, 0x07, 0x0D, 0x0F, 0x1A, 0xFF], op ∉ [0x00, 0x01, 0x02, 0x03, 0x04, 0x08, 0x09, 0x0A, 0x0B, 0x0C,
      0x10, 0x11, 0x12, 0x13, 0x14, 0x15, 0x16, 0x17, 0x18, 0x19] := by decide

theorem witness_CommandWhileBusyStuck :
    (Instr.seqIn 3).format = .cmd ∧ ({ State.reset with phase := .req } : State).phase ≠ .idle := by decide

theorem witness_CommandsEnd : Instr.dpAttach.format = .cmd ∧ State.reset.phase = .idle := by decide

theorem witness_RefusedChangesNothing :
    exec (.seqIn 33) (line .drive []) = .next { line .drive [] with outcomes := [.refused .badCount] } := rfl

theorem witness_DelayIndependence :
    SameUpToDelay (line .drive okA) { line .drive okA with delayCount := 7, trace := [.delay] }
    ∧ ∃ s', exec (.seqIn 3) (line .drive okA) = .next s' := ⟨rfl, _, rfl⟩

theorem witness_FaultGatesNothing : Instr.seqIn 3 ≠ .faultRead ∧ ∃ t, exec (.seqIn 3) (line .drive okA) = .next t :=
  ⟨by decide, _, rfl⟩

theorem witness_GhostIsUnread : ∃ t, exec (.jtagNext true true) (line .drive okA) = .next t := ⟨_, rfl⟩

/-- An access answered FAULT at once. -/
theorem faulted :
    ∃ t, exec (.lowAccess true 0 0) (line .drive faultA) = .next t ∧ t.fault = true ∧ t.ack = 4 := by
  have h := attempts_last (more := Config.params.open5.retryPred)
    (attempt_noData false true 0 0 4 [] { line .drive faultA with tries := 0 } (by decide) rfl) (.inl (by decide))
  refine ⟨_, (exec_command rfl _).trans (runCommand_idle _ rfl), ?_, ?_⟩
  · simp only [commandBody, lowAccess, show addrAligned (0 : BitVec 9) = true by decide,
      show addrApndp (0 : BitVec 9) = false by decide,
      show addrSlot (0 : BitVec 9) = 0 by decide, if_true, h]
    rfl
  · simp only [commandBody, lowAccess, show addrAligned (0 : BitVec 9) = true by decide,
      show addrApndp (0 : BitVec 9) = false by decide,
      show addrSlot (0 : BitVec 9) = 0 by decide, if_true, h]
    rfl

/-- An ABORT write acknowledged OK at once. -/
theorem aborted :
    ∃ t, exec (.dpAbort 0x1E) { line .float okA with fault := true } = .next t ∧ t.fault = false := by
  have h := attempts_last (more := Config.params.open5.retryPred)
    (attempt_write false 0 0x1E [] { line .float okA with fault := true, tries := 0 } rfl) (.inl (by decide))
  refine ⟨_, (exec_command rfl _).trans (runCommand_idle _ rfl), ?_⟩
  simp only [commandBody, dpAbort, lowAccess, show addrAligned (slotAddr Config.params.aAbort) = true by decide,
    show addrApndp (slotAddr Config.params.aAbort) = false by decide,
    show addrSlot (slotAddr Config.params.aAbort) = 0 by decide, if_true, h]
  rfl

/-- A SELECT write acknowledged OK at once. -/
theorem selected :
    ∃ t, exec (.dpWrite 0x08 0x010000F2) (line .float okA) = .next t ∧ t.selValid = true ∧ t.selApsel = 1 := by
  have h := attempts_last (more := Config.params.open5.retryPred)
    (attempt_write false 2 0x010000F2 [] { line .float okA with tries := 0 } rfl) (.inl (by decide))
  refine ⟨_, (exec_command rfl _).trans (runCommand_idle _ rfl), ?_, ?_⟩
  all_goals
    simp only [commandBody, dpWrite, lowAccess, show addrAligned (0x08 : Byte) = true by decide,
      show addrSlot (0x08 : Byte) = Config.params.aSelect by decide,
      show addrAligned (fullAddr false 0x08) = true by decide,
      show addrApndp (fullAddr false 0x08) = false by decide,
      show addrSlot (fullAddr false 0x08) = 2 by decide, if_true, h]
    rfl

theorem witness_FaultRisesOnlyOnFaultAck :
    (line .drive faultA).fault = false ∧ ∃ t, exec (.lowAccess true 0 0) (line .drive faultA) = .next t ∧ t.fault = true :=
  ⟨rfl, let ⟨t, h, hf, _⟩ := faulted; ⟨t, h, hf⟩⟩

theorem witness_FaultFallsOnlyOnAbortOrAttach :
    ∃ t, exec (.dpAbort 0x1E) { line .float okA with fault := true } = .next t ∧ t.fault = false := aborted

/-- Unchanged by a command that writes no SELECT; set by one that does. -/
theorem witness_TrackingFollowsSelectWrites :
    Tracked tracking ∧ (∃ t, exec (.setDelay 1) tracking = .next t ∧ t.selValid = true)
    ∧ (tracking.phase = .idle ∧ step tracking = .next tracking)
    ∧ ∃ t, exec (.dpWrite 0x08 0x010000F2) (line .float okA) = .next t ∧ t.selValid = true :=
  ⟨tracking_tracked, ⟨_, rfl, rfl⟩, ⟨rfl, rfl⟩, let ⟨t, h, hv, _⟩ := selected; ⟨t, h, hv⟩⟩

theorem witness_PhaseMachineRefinesLowAccess :
    (0x1FC : BitVec 9).extractLsb' 0 2 = 0 ∧ (line .drive []).port = [] := by decide

theorem witness_AccessCyclesBounded :
    (line .float okA).phase = .idle
    ∧ (∃ t, exec (.lowAccess true 0 0) (line .float okA) = .next t) ∧ (∃ t, exec (.dpAbort 0) (line .float okA) = .next t)
    ∧ (∃ t, exec (.dpRead 0) (line .float okA) = .next t) ∧ (∃ t, exec (.dpWrite 0 0) (line .float okA) = .next t)
    ∧ (∃ t, exec (.apRead 0 0) (line .float okA) = .next t) ∧ (∃ t, exec (.apWrite 0 0 0) (line .float okA) = .next t)
    ∧ (∃ t, exec .dpAttach (line .float okA) = .next t) :=
  ⟨rfl, ends rfl rfl, ends rfl rfl, ends rfl rfl, ends rfl rfl,
    ends rfl rfl, ends rfl rfl, ends rfl rfl⟩

theorem witness_JtagFamilyFrame :
    (∃ t, exec (.shiftTmsSequence 5 3) (line .drive okA) = .next t)
    ∧ ∃ t, exec (.shift [0x05] 3 true) (line .drive okA) = .next t := ⟨⟨_, rfl⟩, _, rfl⟩

theorem witness_SwdSequenceFrame :
    (∃ t, exec (.seqInWithParity 2) (line .drive okA) = .next t) ∧ ∃ t, exec .turn (line .drive okA) = .next t :=
  ⟨⟨_, rfl⟩, _, rfl⟩

theorem witness_SequencerFrame :
    (∃ t, exec .dpAttach (line .float okA) = .next t) ∧ (∃ t, exec .faultRead (line .float okA) = .next t)
    ∧ (∃ t, exec .reqDpRA0 (line .float okA) = .next t) ∧ ∃ t, exec (.dataW 1) (line .float okA) = .next t :=
  ⟨ends rfl rfl, ⟨_, rfl⟩, ⟨_, rfl⟩, _, rfl⟩

theorem witness_JtagNextCycle : (line .drive okA).phase = .idle := by decide

theorem witness_ShiftTmsSequenceClocks : (line .drive okA).phase = .idle ∧ 0 ≤ 32 ∧ 32 ≤ 32 := by decide

/-- Count 1 and count `JTAG_SHIFT_MAX`; a bit the buffer holds. -/
theorem witness_ShiftDataClocks :
    7 < 8 * [(0xA5 : Byte)].length ∧ (line .drive okA).phase = .idle ∧ 1 ≤ 1 ∧ 1 ≤ Config.params.jtagShiftMax
    ∧ Config.params.jtagShiftMax ≤ Config.params.jtagShiftMax :=
  ⟨by decide, rfl, Nat.le_refl _, Nat.succ_pos _, Nat.le_refl _⟩

theorem witness_ShiftDataDiscardOutputClocks :
    (line .drive okA).phase = .idle ∧ 1 ≤ 1 ∧ 1 ≤ Config.params.jtagShiftMax
    ∧ Config.params.jtagShiftMax ≤ Config.params.jtagShiftMax :=
  ⟨rfl, Nat.le_refl _, Nat.succ_pos _, Nat.le_refl _⟩

theorem witness_JtagBadCountRefused :
    (line .drive []).phase = .idle ∧ 32 < 33 ∧ (0 = 0 ∨ Config.params.jtagShiftMax < 0)
    ∧ (Config.params.jtagShiftMax + 1 = 0 ∨ Config.params.jtagShiftMax < Config.params.jtagShiftMax + 1) :=
  ⟨rfl, by decide, .inl rfl, .inr (Nat.lt_succ_self _)⟩

theorem witness_JtagResetReachesTestLogicReset : (line .drive okA).phase = .idle := by decide

theorem witness_AliasedBufferAgrees :
    16 ≤ 8 * [(0xA5 : Byte), 0x02].length ∧ 1 ≤ 8 * [(0xA5 : Byte), 0x02].length ∧ 1 ≤ Config.params.jtagShiftMax :=
  ⟨by decide, by decide, Nat.succ_pos _⟩

theorem witness_JtagWireFormatsClock : 1 ≤ 1 := by decide

theorem witness_JtagCycleCounts :
    32 ≤ 32 ∧ 1 ≤ Config.params.jtagShiftMax ∧ (∃ t, exec (.jtagNext true true) (line .drive okA) = .next t)
    ∧ (∃ t, exec (.shiftTmsSequence 5 3) (line .drive okA) = .next t)
    ∧ (∃ t, exec (.shiftData [5] 1 true) (line .drive okA) = .next t)
    ∧ (∃ t, exec (.shiftDataDiscardOutput [5] 1 true) (line .drive okA) = .next t)
    ∧ ∃ t, exec .jtagReset (line .drive okA) = .next t :=
  ⟨Nat.le_refl _, Nat.succ_pos _, ⟨_, rfl⟩, ⟨_, rfl⟩, ends rfl rfl, ends rfl rfl,
    ends rfl rfl⟩

/-- Both directions of the line, count 0 and count 32: for the four sequence commands and for two in a row. -/
theorem witness_SeqCommands :
    Consistent (line .drive okA) ∧ Consistent (line .float okA) ∧ (line .drive okA).phase = .idle
    ∧ (line .float okA).phase = .idle ∧ (line .drive okA).swdDir = .drive ∧ 0 ≤ 32 ∧ 32 ≤ 32 :=
  ⟨line_consistent _ _, line_consistent _ _, rfl, rfl, rfl, by decide, by decide⟩

theorem witness_SwdBadCountRefused :
    (line .drive []).phase = .idle ∧ 32 < 33
    ∧ Instr.seqIn 33 ∈ [Instr.seqOut 0 33, .seqOutWithParity 0 33, .seqIn 33, .seqInWithParity 33] := by decide

theorem witness_SetDelayWrites : (line .drive []).phase = .idle := by decide

theorem witness_SwdCycleCounts :
    32 ≤ 32 ∧ (∃ t, exec (.seqOut 5 3) (line .float []) = .next t)
    ∧ (∃ t, exec (.seqOutWithParity 5 3) (line .float []) = .next t)
    ∧ (∃ t, exec (.seqIn 3) (line .drive okA) = .next t) ∧ ∃ t, exec (.seqInWithParity 2) (line .drive okA) = .next t :=
  ⟨Nat.le_refl _, ⟨_, rfl⟩, ⟨_, rfl⟩, ⟨_, rfl⟩, _, rfl⟩

theorem witness_TurnSpendsOneCycle :
    Consistent (line .drive []) ∧ (line .drive []).swdDir = .drive
    ∧ Consistent (line .float []) ∧ (line .float []).swdDir = .float :=
  ⟨line_consistent _ _, rfl, line_consistent _ _, rfl⟩

/-- A block in S_REQ with no request sent, and an idle one. -/
theorem witness_RequestsGoOut :
    Consistent { line .float [] with phase := .req } ∧ Consistent (line .drive []) := by
  refine ⟨?_, line_consistent _ _⟩
  constructor <;> simp [line, State.reset, one_try]

/-- A block in S_ACK after its last request and after its first; and an idle one. -/
theorem witness_AcksAreReceived :
    Consistent { line .drive [] with phase := .ack, tries := Config.params.retryBound }
    ∧ Consistent { line .drive [] with phase := .ack, tries := 1 } ∧ Consistent (line .drive []) := by
  have h : 1 ≤ Config.params.retryBound := one_try
  refine ⟨?_, ?_, line_consistent _ _⟩
  · constructor <;> simp [line, State.reset, h]
  · constructor <;> simp [line, State.reset, h]

/-- A block in S_WDATA, one in S_RDATA, and an idle one. -/
theorem witness_DataPhasesMoveWords :
    Consistent { line .float [] with phase := .wdata, tries := 1 }
    ∧ Consistent { line .float [] with phase := .rdata, tries := 1 } ∧ Consistent (line .float []) := by
  have h : 1 ≤ Config.params.retryBound := one_try
  refine ⟨?_, ?_, line_consistent _ _⟩
  · constructor <;> simp [line, State.reset, h]
  · constructor <;> simp [line, State.reset, h]

/-- No WAIT, and as many as leave one try. -/
theorem witness_LowAccessReads :
    let q := waitAnswers 0 ++ readAnswers 0x2BA01477 false ++ [true]
    let q' := waitAnswers (Config.params.retryBound - 1) ++ readAnswers 0x2BA01477 true ++ []
    Consistent (line .float q) ∧ (line .float q).phase = .idle ∧ (0x1FC : BitVec 9).extractLsb' 0 2 = 0
    ∧ 0 < Config.params.retryBound ∧ (line .float q).swdioIn.queue = q
    ∧ Consistent (line .drive q') ∧ Config.params.retryBound - 1 < Config.params.retryBound
    ∧ (line .drive q').swdioIn.queue = q' :=
  ⟨line_consistent _ _, rfl, by decide, one_try, rfl, line_consistent _ _, last_try, rfl⟩

theorem witness_LowAccessWrites :
    let q := waitAnswers 0 ++ bitsOf (1 : BitVec 3) 3 ++ [true]
    let q' := waitAnswers (Config.params.retryBound - 1) ++ bitsOf (1 : BitVec 3) 3 ++ []
    Consistent (line .float q) ∧ (line .float q).phase = .idle ∧ (0x008 : BitVec 9).extractLsb' 0 2 = 0
    ∧ 0 < Config.params.retryBound ∧ (line .float q).swdioIn.queue = q
    ∧ Consistent (line .drive q') ∧ Config.params.retryBound - 1 < Config.params.retryBound
    ∧ (line .drive q').swdioIn.queue = q' :=
  ⟨line_consistent _ _, rfl, by decide, one_try, rfl, line_consistent _ _, last_try, rfl⟩

theorem witness_LowAccessTimesOut :
    let q := waitAnswers Config.params.retryBound ++ okA
    Consistent (line .float q) ∧ (line .float q).phase = .idle ∧ (0x004 : BitVec 9).extractLsb' 0 2 = 0
    ∧ (line .float q).swdioIn.queue = q := ⟨line_consistent _ _, rfl, by decide, rfl⟩

theorem witness_LowAccessFaults :
    let q := waitAnswers 0 ++ bitsOf (4 : BitVec 3) 3 ++ [true]
    Consistent (line .float q) ∧ (line .float q).phase = .idle ∧ (0x004 : BitVec 9).extractLsb' 0 2 = 0
    ∧ 0 < Config.params.retryBound ∧ Config.params.retryBound - 1 < Config.params.retryBound
    ∧ (line .float q).swdioIn.queue = q := ⟨line_consistent _ _, rfl, by decide, one_try, last_try, rfl⟩

theorem witness_LowAccessInvalidAck :
    let q := waitAnswers 0 ++ bitsOf (7 : BitVec 3) 3 ++ []
    Consistent (line .drive q) ∧ (line .drive q).phase = .idle ∧ (0 : BitVec 9).extractLsb' 0 2 = 0
    ∧ 0 < Config.params.retryBound ∧ (7 : BitVec 3) ∈ ([0, 3, 5, 6, 7] : List (BitVec 3)) ∧ (line .drive q).swdioIn.queue = q :=
  ⟨line_consistent _ _, rfl, by decide, one_try, by decide, rfl⟩

/-- Each of the two low bits alone, and both. -/
theorem witness_MisalignedAddressRefused :
    (line .drive []).phase = .idle ∧ (0x001 : BitVec 9).extractLsb' 0 2 ≠ 0 ∧ (0x002 : BitVec 9).extractLsb' 0 2 ≠ 0
    ∧ (0xFF : Byte).extractLsb' 0 2 ≠ 0 ∧ (0x02 : Byte).extractLsb' 0 2 ≠ 0 := by decide

/-- The bank tracked; tracked but another; not tracked. -/
theorem witness_DpReadReads :
    let q := waitAnswers 0 ++ readAnswers 5 false ++ []
    let q' := waitAnswers 0 ++ bitsOf (1 : BitVec 3) 3 ++ (waitAnswers 0 ++ readAnswers 5 false ++ [])
    let s := { line .drive q with selValid := true, selDpbank := 2 }
    let t := { line .drive q' with selValid := true, selDpbank := 1 }
    Consistent s ∧ s.phase = .idle ∧ (0x24 : Byte).extractLsb' 0 2 = 0 ∧ 0 < Config.params.retryBound
    ∧ s.selValid = true ∧ s.selDpbank = (0x24 : Byte).extractLsb' 4 4 ∧ s.swdioIn.queue = q
    ∧ Consistent t ∧ t.phase = .idle ∧ ¬(t.selValid = true ∧ t.selDpbank = (0x24 : Byte).extractLsb' 4 4)
    ∧ t.swdioIn.queue = q'
    ∧ ¬((line .float q').selValid = true ∧ (line .float q').selDpbank = (0x24 : Byte).extractLsb' 4 4) := by
  refine ⟨?_, rfl, by decide, one_try, rfl, by decide, rfl, ?_, rfl, by decide, rfl, by decide⟩
  · constructor <;> simp [line, State.reset]
  · constructor <;> simp [line, State.reset]

/-- To SELECT; to another register with the bank tracked; with the bank not tracked. -/
theorem witness_DpWriteWrites :
    let q := waitAnswers 0 ++ bitsOf (1 : BitVec 3) 3 ++ []
    let q' := waitAnswers 0 ++ bitsOf (1 : BitVec 3) 3 ++ (waitAnswers 0 ++ bitsOf (1 : BitVec 3) 3 ++ [])
    let s := { line .drive q with selValid := true, selDpbank := 0 }
    Consistent s ∧ s.phase = .idle ∧ 0 < Config.params.retryBound ∧ s.swdioIn.queue = q
    ∧ (0x08 : Byte).extractLsb' 0 2 = 0 ∧ (0x08 : Byte).extractLsb' 2 2 = 2
    ∧ (0x04 : Byte).extractLsb' 0 2 = 0 ∧ (0x04 : Byte).extractLsb' 2 2 ≠ 2
    ∧ s.selValid = true ∧ s.selDpbank = (0x04 : Byte).extractLsb' 4 4
    ∧ Consistent (line .float q') ∧ (line .float q').phase = .idle ∧ (line .float q').swdioIn.queue = q'
    ∧ ¬((line .float q').selValid = true ∧ (line .float q').selDpbank = (0x04 : Byte).extractLsb' 4 4) := by
  refine ⟨?_, rfl, one_try, rfl, by decide, by decide, by decide, by decide, rfl, by decide, line_consistent _ _, rfl, rfl,
    by decide⟩
  constructor <;> simp [line, State.reset]

theorem witness_DpAbortClearsFault :
    let q := waitAnswers 0 ++ bitsOf (1 : BitVec 3) 3 ++ []
    let s := { line .float q with fault := true }
    Consistent s ∧ s.phase = .idle ∧ 0 < Config.params.retryBound ∧ s.swdioIn.queue = q := by
  refine ⟨?_, rfl, one_try, rfl⟩
  constructor <;> simp [line, State.reset]

/-- AP select and bank tracked; not tracked. The same states serve `ap_write` with its answers. -/
theorem witness_ApReadReads :
    let q := waitAnswers 0 ++ readAnswers 5 false ++ []
    let q' := waitAnswers 0 ++ bitsOf (1 : BitVec 3) 3 ++ (waitAnswers 0 ++ readAnswers 5 false ++ [])
    let s := { line .drive q with selValid := true, selApsel := 1, selApbank := 15 }
    let t := { line .drive q' with selValid := true, selApsel := 0, selApbank := 15 }
    Consistent s ∧ s.phase = .idle ∧ (0xFC : Byte).extractLsb' 0 2 = 0 ∧ 0 < Config.params.retryBound
    ∧ s.selValid = true ∧ s.selApsel = 1 ∧ s.selApbank = (0xFC : Byte).extractLsb' 4 4 ∧ s.swdioIn.queue = q
    ∧ Consistent t ∧ t.phase = .idle
    ∧ ¬(t.selValid = true ∧ t.selApsel = 1 ∧ t.selApbank = (0xFC : Byte).extractLsb' 4 4) ∧ t.swdioIn.queue = q' := by
  refine ⟨?_, rfl, by decide, one_try, rfl, rfl, by decide, rfl, ?_, rfl, by decide, rfl⟩
  · constructor <;> simp [line, State.reset]
  · constructor <;> simp [line, State.reset]

theorem witness_ApWriteWrites :
    let q := waitAnswers 0 ++ bitsOf (1 : BitVec 3) 3 ++ []
    let q' := waitAnswers 0 ++ bitsOf (1 : BitVec 3) 3 ++ (waitAnswers 0 ++ bitsOf (1 : BitVec 3) 3 ++ [])
    let s := { line .drive q with selValid := true, selApsel := 1, selApbank := 15 }
    let t := { line .drive q' with selValid := true, selApsel := 1, selApbank := 14 }
    Consistent s ∧ s.phase = .idle ∧ (0xFC : Byte).extractLsb' 0 2 = 0 ∧ 0 < Config.params.retryBound
    ∧ s.selValid = true ∧ s.selApsel = 1 ∧ s.selApbank = (0xFC : Byte).extractLsb' 4 4 ∧ s.swdioIn.queue = q
    ∧ Consistent t ∧ t.phase = .idle
    ∧ ¬(t.selValid = true ∧ t.selApsel = 1 ∧ t.selApbank = (0xFC : Byte).extractLsb' 4 4) ∧ t.swdioIn.queue = q' := by
  refine ⟨?_, rfl, by decide, one_try, rfl, rfl, by decide, rfl, ?_, rfl, by decide, rfl⟩
  · constructor <;> simp [line, State.reset]
  · constructor <;> simp [line, State.reset]

/-- An access answered FAULT, and one answered WAIT as often as there are tries; nothing tracked. -/
theorem witness_FailedAccessEndsCommand_select :
    let q := waitAnswers 0 ++ bitsOf (4 : BitVec 3) 3 ++ []
    let q' := waitAnswers (Config.params.retryBound - 1) ++ bitsOf (2 : BitVec 3) 3 ++ []
    Consistent (line .float q) ∧ (line .float q).phase = .idle ∧ (0x04 : Byte).extractLsb' 0 2 = 0
    ∧ 0 < Config.params.retryBound ∧ (4 : BitVec 3) ≠ 1 ∧ (4 : BitVec 3) ≠ 2 ∧ (line .float q).swdioIn.queue = q
    ∧ (0x04 : Byte).extractLsb' 2 2 ≠ 2 ∧ ¬DpTracked (line .float q) 0x04 ∧ ¬ApTracked (line .float q) 0 0x04
    ∧ Consistent (line .float q') ∧ Config.params.retryBound - 1 < Config.params.retryBound
    ∧ ((2 : BitVec 3) = 2 → Config.params.retryBound - 1 + 1 = Config.params.retryBound)
    ∧ (line .float q').swdioIn.queue = q' :=
  ⟨line_consistent _ _, rfl, by decide, one_try, by decide, by decide, rfl, by decide, fun h => (nomatch h.1),
    fun h => (nomatch h.1), line_consistent _ _, last_try, fun _ => rfl, rfl⟩

/-- Both keys tracked, so that the one access is the first; and a SELECT write answered OK with an access after it answered
with an invalid acknowledge. -/
theorem witness_FailedAccessEndsCommand_access :
    let q := waitAnswers 0 ++ bitsOf (4 : BitVec 3) 3 ++ []
    let s := { line .drive q with selValid := true }
    let q' := waitAnswers 0 ++ bitsOf (1 : BitVec 3) 3 ++ (waitAnswers 0 ++ bitsOf (7 : BitVec 3) 3 ++ [])
    Consistent s ∧ s.phase = .idle ∧ DpTracked s 0x0C ∧ ApTracked s 0 0x0C ∧ (0x0C : Byte).extractLsb' 0 2 = 0
    ∧ s.swdioIn.queue = q ∧ (0x08 : Byte).extractLsb' 2 2 = 2
    ∧ (0x0C : Byte).extractLsb' 2 2 ≠ 2 ∧ ¬DpTracked (line .float q') 0x0C ∧ ¬ApTracked (line .float q') 0 0x0C
    ∧ (7 : BitVec 3) ≠ 1 ∧ ((7 : BitVec 3) = 2 → 0 + 1 = Config.params.retryBound)
    ∧ (line .float q').swdioIn.queue = q' := by
  refine ⟨?_, rfl, ⟨rfl, by decide⟩, ⟨rfl, rfl, by decide⟩, by decide, rfl, by decide, by decide, fun h => (nomatch h.1),
    fun h => (nomatch h.1), by decide, fun h => absurd h (by decide), rfl⟩
  constructor <;> simp [line, State.reset]

/-- `DP_V2` has one of its two values, so one of the two clauses applies; its answers are presented here. -/
theorem witness_DpAttachLoads :
    let rest := waitAnswers 0 ++ bitsOf (1 : BitVec 3) 3 ++ (waitAnswers 0 ++ readAnswers 0x01002927 (parity (0x01002927 : Word)) ++ [])
    let q := waitAnswers 0 ++ readAnswers 0x2BA01477 (parity (0x2BA01477 : Word)) ++ rest
    Consistent (line .float q) ∧ (line .float q).phase = .idle ∧ 0 < Config.params.retryBound
    ∧ (line .float q).swdioIn.queue = q ∧ (Config.params.open5.dpV2 = false ∨ Config.params.open5.dpV2 = true) :=
  ⟨line_consistent _ _, rfl, one_try, rfl, by cases Config.params.open5.dpV2 <;> simp⟩

/-- The first read answered FAULT; and answered OK with a wrong parity bit. -/
theorem witness_FailedAttachLeavesNoValue_idcode :
    let q := waitAnswers 0 ++ bitsOf (4 : BitVec 3) 3 ++ []
    let q' := waitAnswers 0 ++ readAnswers 1 false ++ []
    Consistent (line .float q) ∧ (line .float q).phase = .idle ∧ 0 < Config.params.retryBound ∧ (4 : BitVec 3) ≠ 1
    ∧ (4 : BitVec 3) ≠ 2 ∧ (line .float q).swdioIn.queue = q
    ∧ false ≠ parity (1 : Word) ∧ (line .float q').swdioIn.queue = q' :=
  ⟨line_consistent _ _, rfl, one_try, by decide, by decide, rfl, by decide, rfl⟩

/-- Where `DP_V2` holds, after a good first read: the SELECT write answered FAULT; the read of TARGETID answered FAULT; and
answered OK with a wrong parity bit. -/
theorem witness_FailedAttachLeavesNoValue_targetid :
    let q rest := waitAnswers 0 ++ readAnswers 0x2BA01477 (parity (0x2BA01477 : Word)) ++ rest
    let rest1 := waitAnswers 0 ++ bitsOf (4 : BitVec 3) 3 ++ []
    let rest2 := waitAnswers 0 ++ bitsOf (1 : BitVec 3) 3 ++ (waitAnswers 0 ++ bitsOf (4 : BitVec 3) 3 ++ [])
    let rest3 := waitAnswers 0 ++ bitsOf (1 : BitVec 3) 3 ++ (waitAnswers 0 ++ readAnswers 1 false ++ [])
    Consistent (line .float (q rest1)) ∧ (line .float (q rest1)).phase = .idle ∧ 0 < Config.params.retryBound
    ∧ (line .float (q rest1)).swdioIn.queue = q rest1 ∧ (line .float (q rest2)).swdioIn.queue = q rest2
    ∧ (line .float (q rest3)).swdioIn.queue = q rest3 ∧ (4 : BitVec 3) ≠ 1 ∧ (4 : BitVec 3) ≠ 2
    ∧ false ≠ parity (1 : Word) :=
  ⟨line_consistent _ _, rfl, one_try, rfl, rfl, rfl, by decide, by decide, by decide⟩

/-- A register with a value, and without. -/
theorem witness_ConnectionRegistersRead :
    let s := { line .float [] with idcode := some 0x2BA01477, targetid := some 5 }
    s.phase = .idle ∧ s.idcode = some 0x2BA01477 ∧ s.targetid = some 5
    ∧ (line .float []).phase = .idle ∧ (line .float []).idcode = none ∧ (line .float []).targetid = none := by decide

end Sys2Proof.Tests
end

section
/-! PROOFS. The family 10_state.md: what each family of instructions leaves unchanged, which registers no rule reads, and when
the fault latch moves. -/

namespace Sys2Proof.Machine
open Sys2Proof.Safety

/-! ### The instructions that are no commands -/

/-- What an instruction of a wire format does (log 2), by its format. -/
inductive WireMeaning : Format → (State → State) → Prop
  | request (apndp rnw : Bool) (a : BitVec 2) : WireMeaning .req (requestStep apndp rnw a)
  | ack (v : BitVec 3) : WireMeaning .ack (ackStep v)
  | dataW (data : Word) : WireMeaning .dataW (dataWStep data)
  | dataR (data : Word) (par : Bool) : WireMeaning .dataR (dataRStep data par)
  | turn : WireMeaning .turn turnLine
  | tmsseq (bits : Word) (count : Nat) : WireMeaning .tmsseq (clockTms (bitsOf bits count))
  | shift (tdi : List Byte) (count : Nat) (finalTms : Bool) :
    WireMeaning .shift fun s => (clockData finalTms (shiftLevels tdi count s.outcomes.length) s).2

/-- Executing what is no command is the wire item of its format, in every state. -/
theorem exec_wire {i : Instr} (h : i.format ≠ .cmd) :
    ∃ op, WireMeaning i.format op ∧ ∀ s, exec i s = .next (op s) := by
  cases i with
  | reqDpWA0 | reqDpWA4 | reqDpWA8 | reqDpWAC | reqDpRA0 | reqDpRA4 | reqDpRA8 | reqDpRAC
  | reqApWA0 | reqApWA4 | reqApWA8 | reqApWAC | reqApRA0 | reqApRA4 | reqApRA8 | reqApRAC =>
    exact ⟨_, .request _ _ _, fun _ => rfl⟩
  | ackOk | ackWait | ackFault | ackInvalid0 | ackInvalid3 | ackInvalid5 | ackInvalid6 | ackInvalid7 =>
    exact ⟨_, .ack _, fun _ => rfl⟩
  | dataW data => exact ⟨_, .dataW data, fun _ => rfl⟩
  | dataR data par => exact ⟨_, .dataR data par, fun _ => rfl⟩
  | turn => exact ⟨_, .turn, fun _ => rfl⟩
  | tmsseq bits count => exact ⟨_, .tmsseq bits count, fun _ => rfl⟩
  | shift tdi count finalTms => exact ⟨_, .shift tdi count finalTms, fun _ => rfl⟩
  | _ => exact absurd rfl h

/-- A command that answers a next state ended, at an idle block, with its body's outcome. -/
theorem exec_command_next {i : Instr} {s t : State} (hi : i.format = .cmd) (h : exec i s = .next t) :
    s.phase = .idle ∧ t = endCommand (commandBody i s) := by
  rw [exec_command hi] at h
  exact runCommand_next h

/-! ### What an operation can have changed -/

/-- Nothing but the JTAG pins and the trace differs (40_jtag_tap.md, header). -/
def JtagOnly (s t : State) : Prop :=
  t = { s with
    tck := t.tck, tms := t.tms, tdi := t.tdi, trst := t.trst, tapShadow := t.tapShadow, tdo := t.tdo, trace := t.trace }

/-- Nothing but the SWD line and the trace differs (41_swd_sequence.md, header). -/
def SwdOnly (s t : State) : Prop :=
  t = { s with
    swclk := t.swclk, swdioOut := t.swdioOut, swdioOe := t.swdioOe, swdDir := t.swdDir, swdioIn := t.swdioIn
    trace := t.trace }

/-- Nothing but the SWD line, the framer's registers, the sequencer's control state, the latch and the trace differs: what a
packet phase alone can change (42_swd_packet.md R126). -/
def PacketOnly (s t : State) : Prop :=
  t = { s with
    swclk := t.swclk, swdioOut := t.swdioOut, swdioOe := t.swdioOe, swdDir := t.swdDir, swdioIn := t.swdioIn
    req := t.req, ack := t.ack, wdata := t.wdata, rdata := t.rdata, pok := t.pok
    phase := t.phase, tries := t.tries, fault := t.fault, trace := t.trace }

/-- As `PacketOnly`, with the tracking: what accesses can change (43_dp_sequencer.md R141 to R153). -/
def AccessOnly (s t : State) : Prop :=
  t = { s with
    swclk := t.swclk, swdioOut := t.swdioOut, swdioOe := t.swdioOe, swdDir := t.swdDir, swdioIn := t.swdioIn
    req := t.req, ack := t.ack, wdata := t.wdata, rdata := t.rdata, pok := t.pok
    phase := t.phase, tries := t.tries, fault := t.fault
    selValid := t.selValid, selApsel := t.selApsel, selApbank := t.selApbank, selDpbank := t.selDpbank
    trace := t.trace }

/-- As `AccessOnly`, with the two registers that `dp_attach` loads (R154). -/
def AttachOnly (s t : State) : Prop :=
  t = { s with
    swclk := t.swclk, swdioOut := t.swdioOut, swdioOe := t.swdioOe, swdDir := t.swdDir, swdioIn := t.swdioIn
    req := t.req, ack := t.ack, wdata := t.wdata, rdata := t.rdata, pok := t.pok
    phase := t.phase, tries := t.tries, fault := t.fault, idcode := t.idcode, targetid := t.targetid
    selValid := t.selValid, selApsel := t.selApsel, selApbank := t.selApbank, selDpbank := t.selDpbank
    trace := t.trace }

theorem PacketOnly.trans {s t u : State} (h : PacketOnly s t) (h' : PacketOnly t u) : PacketOnly s u := by
  unfold PacketOnly at *
  rw [h', h]

theorem AccessOnly.trans {s t u : State} (h : AccessOnly s t) (h' : AccessOnly t u) : AccessOnly s u := by
  unfold AccessOnly at *
  rw [h', h]

theorem AttachOnly.trans {s t u : State} (h : AttachOnly s t) (h' : AttachOnly t u) : AttachOnly s u := by
  unfold AttachOnly at *
  rw [h', h]

theorem PacketOnly.accessOnly {s t : State} (h : PacketOnly s t) : AccessOnly s t := by
  unfold PacketOnly at h
  rw [h]; rfl

theorem AccessOnly.attachOnly {s t : State} (h : AccessOnly s t) : AttachOnly s t := by
  unfold AccessOnly at h
  rw [h]; rfl

/-! The fields that the latch's moves and a command's end are stated by. -/

theorem JtagOnly.fault {s t : State} (h : JtagOnly s t) : t.fault = s.fault := (congrArg State.fault h :)

theorem SwdOnly.fault {s t : State} (h : SwdOnly s t) : t.fault = s.fault := (congrArg State.fault h :)

theorem JtagOnly.outcomes {s t : State} (h : JtagOnly s t) : t.outcomes = s.outcomes := (congrArg State.outcomes h :)

theorem SwdOnly.outcomes {s t : State} (h : SwdOnly s t) : t.outcomes = s.outcomes := (congrArg State.outcomes h :)

theorem AccessOnly.outcomes {s t : State} (h : AccessOnly s t) : t.outcomes = s.outcomes :=
  (congrArg State.outcomes h :)

theorem AttachOnly.outcomes {s t : State} (h : AttachOnly s t) : t.outcomes = s.outcomes :=
  (congrArg State.outcomes h :)

/-! ### The JTAG family -/

theorem clockTms_jtagOnly (bs : List Bool) (s : State) : JtagOnly s (clockTms bs s) := by
  rw [clockTms_eq]; rfl

theorem clockData_jtagOnly (finalTms : Bool) (bs : List Bool) (s : State) :
    JtagOnly s (clockData finalTms bs s).2 := by
  by_cases h : bs = []
  · subst h; rfl
  · rw [clockData_eq _ _ _ h]; rfl

theorem jtagReset_jtagOnly (p : Params) (s : State) : JtagOnly s (jtagReset p s).2 := by
  rw [jtagReset, clockTms_eq, pulseTrst_eq]; rfl

theorem jtagNext_jtagOnly (tms tdi : Bool) (s : State) : JtagOnly s (jtagNext tms tdi s).2 := by
  rw [jtagNext_eq]; rfl

theorem shiftTmsSequence_jtagOnly (bits : Word) (count : Nat) (s : State) :
    JtagOnly s (shiftTmsSequence bits count s).2 := by
  unfold shiftTmsSequence
  split
  · rfl
  · exact clockTms_jtagOnly _ s

theorem shiftData_jtagOnly (p : Params) (tdi : List Byte) (count : Nat) (finalTms : Bool) (s : State) :
    JtagOnly s (shiftData p tdi count finalTms s).2 := by
  unfold shiftData
  split
  · rfl
  · exact clockData_jtagOnly _ _ s

theorem shiftDataDiscardOutput_jtagOnly (p : Params) (tdi : List Byte) (count : Nat) (finalTms : Bool) (s : State) :
    JtagOnly s (shiftDataDiscardOutput p tdi count finalTms s).2 := by
  unfold shiftDataDiscardOutput
  split
  · rfl
  · exact clockData_jtagOnly _ _ s

theorem JtagOnly.frame {s t : State} (h : JtagOnly s t) :
    SameSwd s t ∧ SameFramer s t ∧ SameTracking s t ∧ SameConnection s t ∧ SameControl s t
      ∧ t.delayCount = s.delayCount ∧ t.port = s.port := by
  unfold JtagOnly at h
  rw [h]
  simp [SameSwd, SameFramer, SameTracking, SameConnection, SameControl]

/-- Settles O20: each instruction of the family is a loop of TCK cycles, which touches the JTAG pins alone; the outcome of a
command touches nothing of the frame. -/
theorem jtagFamilyFrame : Obligations.JtagFamilyFrame := by
  intro s t b c bits tdi n h
  rcases h with h | h | h | h | h | h | h
  · obtain ⟨-, rfl⟩ := exec_command_next rfl h
    exact (jtagReset_jtagOnly Config.params s).frame
  · obtain ⟨-, rfl⟩ := exec_command_next rfl h
    exact (jtagNext_jtagOnly b c s).frame
  · obtain ⟨-, rfl⟩ := exec_command_next rfl h
    exact (shiftTmsSequence_jtagOnly bits n s).frame
  · obtain ⟨-, rfl⟩ := exec_command_next rfl h
    exact (shiftData_jtagOnly Config.params tdi n b s).frame
  · obtain ⟨-, rfl⟩ := exec_command_next rfl h
    exact (shiftDataDiscardOutput_jtagOnly Config.params tdi n b s).frame
  · cases h; exact (clockTms_jtagOnly (bitsOf bits n) s).frame
  · cases h; exact (clockData_jtagOnly b (shiftLevels tdi n s.outcomes.length) s).frame

/-! ### The SWD sequence family -/

theorem seqOut_swdOnly (bits : Word) (count : Nat) (s : State) : SwdOnly s (seqOut bits count s).2 := by
  unfold seqOut
  split
  · rfl
  · rw [sendBits_eq]; rfl

theorem seqOutWithParity_swdOnly (value : Word) (count : Nat) (s : State) :
    SwdOnly s (seqOutWithParity value count s).2 := by
  unfold seqOutWithParity
  split
  · rfl
  · rw [sendBitsParity_eq]; rfl

theorem seqIn_swdOnly (count : Nat) (s : State) : SwdOnly s (seqIn count s).2 := by
  unfold seqIn
  split
  · rfl
  · rw [receiveBits_eq]; rfl

theorem seqInWithParity_swdOnly (count : Nat) (s : State) : SwdOnly s (seqInWithParity count s).2 := by
  unfold seqInWithParity
  split
  · rfl
  · rw [receiveBitsParity_eq]; rfl

theorem turnLine_swdOnly (s : State) : SwdOnly s (turnLine s) := by
  rw [turnLine_eq, turnaround_eq]; rfl

theorem SwdOnly.frame {s t : State} (h : SwdOnly s t) :
    SameJtag s t ∧ SameFramer s t ∧ SameTracking s t ∧ SameConnection s t ∧ SameControl s t
      ∧ t.delayCount = s.delayCount ∧ t.port = s.port := by
  unfold SwdOnly at h
  rw [h]
  simp [SameJtag, SameFramer, SameTracking, SameConnection, SameControl]

/-- Settles O21: each instruction of the family is turnarounds and SWCLK cycles, which touch the SWD line alone; the outcome of
a command touches nothing of the frame. -/
theorem swdSequenceFrame : Obligations.SwdSequenceFrame := by
  intro s t v n h
  rcases h with h | h | h | h | h
  · obtain ⟨-, rfl⟩ := exec_command_next rfl h
    exact (seqOut_swdOnly v n s).frame
  · obtain ⟨-, rfl⟩ := exec_command_next rfl h
    exact (seqOutWithParity_swdOnly v n s).frame
  · obtain ⟨-, rfl⟩ := exec_command_next rfl h
    exact (seqIn_swdOnly n s).frame
  · obtain ⟨-, rfl⟩ := exec_command_next rfl h
    exact (seqInWithParity_swdOnly n s).frame
  · cases h; exact (turnLine_swdOnly s).frame

/-! ### Packet phases and accesses -/

theorem leaveAck_packetOnly (s : State) : PacketOnly s (leaveAck Config.params s) := by
  unfold leaveAck
  split <;> rfl

theorem requestStep_packetOnly (apndp rnw : Bool) (a : BitVec 2) (s : State) :
    PacketOnly s (requestStep apndp rnw a s) := by
  rw [requestStep, sendRequest_eq]
  split <;> rfl

theorem ackStep_packetOnly (v : BitVec 3) (s : State) : PacketOnly s (ackStep v s) := by
  have hr : PacketOnly s (receiveAck (presentSwdio (bitsOf v 3) s)) := by rw [receiveAck_eq]; rfl
  unfold ackStep
  split
  · exact hr.trans (leaveAck_packetOnly _)
  · exact hr

theorem dataWStep_packetOnly (data : Word) (s : State) : PacketOnly s (dataWStep data s) := by
  rw [dataWStep, writeDataPhase_eq]
  split <;> rfl

theorem dataRStep_packetOnly (data : Word) (par : Bool) (s : State) : PacketOnly s (dataRStep data par s) := by
  rw [dataRStep, readDataPhase_eq]
  split <;> rfl

/-- An access changes what is the sequencer's, however it ends. -/
theorem lowAccess_accessOnly (rnw : Bool) (addr : BitVec 9) (v : Word) (s : State) :
    AccessOnly s (lowAccess Config.params rnw addr v s).2 := by
  rcases lowAccess_cases rnw addr v s with ⟨-, h⟩ | ⟨-, n, pin, -, ⟨ack, -, -, h⟩ | ⟨-, w, par, h⟩ | ⟨-, h⟩⟩ <;>
    rw [h] <;> rfl

theorem ensureSelectDp_accessOnly (bank : BitVec 4) (s : State) :
    AccessOnly s (ensureSelectDp Config.params bank s).2 := by
  unfold ensureSelectDp
  split
  · rfl
  · exact lowAccess_accessOnly _ _ _ s

theorem ensureSelectAp_accessOnly (apsel : BitVec 8) (bank : BitVec 4) (s : State) :
    AccessOnly s (ensureSelectAp Config.params apsel bank s).2 := by
  unfold ensureSelectAp
  split
  · rfl
  · exact lowAccess_accessOnly _ _ _ s

theorem AccessOnly.andThenOk {s : State} {r : CmdOutcome × State} {next : State → CmdOutcome × State}
    (h : AccessOnly s r.2) (h' : AccessOnly r.2 (next r.2).2) : AccessOnly s (andThenOk r next).2 := by
  rcases andThenOk_cases r next with ⟨e, -⟩ | ⟨e, -⟩ <;> rw [e]
  · exact h
  · exact h.trans h'

theorem dpRead_accessOnly (addr : Byte) (s : State) : AccessOnly s (dpRead Config.params addr s).2 := by
  unfold dpRead
  split
  · exact (ensureSelectDp_accessOnly _ s).andThenOk (lowAccess_accessOnly _ _ _ _)
  · rfl

theorem dpWrite_accessOnly (addr : Byte) (v : Word) (s : State) : AccessOnly s (dpWrite Config.params addr v s).2 := by
  unfold dpWrite
  split
  · split
    · exact lowAccess_accessOnly _ _ _ s
    · exact (ensureSelectDp_accessOnly _ s).andThenOk (lowAccess_accessOnly _ _ _ _)
  · rfl

theorem apRead_accessOnly (apsel addr : Byte) (s : State) : AccessOnly s (apRead Config.params apsel addr s).2 := by
  unfold apRead
  split
  · exact (ensureSelectAp_accessOnly _ _ s).andThenOk (lowAccess_accessOnly _ _ _ _)
  · rfl

theorem apWrite_accessOnly (apsel addr : Byte) (v : Word) (s : State) :
    AccessOnly s (apWrite Config.params apsel addr v s).2 := by
  unfold apWrite
  split
  · exact (ensureSelectAp_accessOnly _ _ s).andThenOk (lowAccess_accessOnly _ _ _ _)
  · rfl

/-- Reading a register that may hold no value changes nothing, whichever way it ends. -/
theorem readRegister_snd (r : Option Word) (s : State) : (readRegister r s).2 = s := by
  cases r <;> rfl

theorem readRegister_accessOnly (r : Option Word) (s : State) : AccessOnly s (readRegister r s).2 := by
  rw [readRegister_snd]; rfl

theorem dpAttach_attachOnly (s : State) : AttachOnly s (dpAttach Config.params s).2 := by
  obtain ⟨r, hr, h⟩ := dpAttach_cases s
  have h1 : AttachOnly s r.2 := by
    rw [hr]
    exact .trans (t := { s with fault := false, selValid := false, idcode := none, targetid := none }) rfl
      (lowAccess_accessOnly _ _ _ _).attachOnly
  rcases h with ⟨e, -⟩ | ⟨v, -, ⟨-, e⟩ | ⟨-, r2, hr2, h2⟩⟩
  · rw [e]; exact h1
  · rw [e]; exact h1.trans rfl
  · have h3 : AttachOnly s r2.2 := by
      rw [hr2]
      exact (h1.trans (u := { r.2 with idcode := some v }) rfl).trans (dpRead_accessOnly _ _).attachOnly
    rcases h2 with ⟨e, -⟩ | ⟨w, -, e⟩ <;> rw [e]
    · exact h3
    · exact h3.trans rfl

/-- The state a command answers, without the outcome it handed over, is the one its body left. -/
theorem AttachOnly.of_command {i : Instr} {s t : State} (h : exec i s = .next t) (hi : i.format = .cmd)
    (hb : AttachOnly s (commandBody i s).2) : AttachOnly s { t with outcomes := s.outcomes } := by
  obtain ⟨-, rfl⟩ := exec_command_next hi h
  exact congrArg (fun u => { u with outcomes := s.outcomes }) hb

theorem AccessOnly.of_command {i : Instr} {s t : State} (h : exec i s = .next t) (hi : i.format = .cmd)
    (hb : AccessOnly s (commandBody i s).2) : AccessOnly s { t with outcomes := s.outcomes } := by
  obtain ⟨-, rfl⟩ := exec_command_next hi h
  exact congrArg (fun u => { u with outcomes := s.outcomes }) hb

theorem AttachOnly.frame {s t : State} (h : AttachOnly s t) :
    SameJtag s t ∧ t.delayCount = s.delayCount ∧ t.port = s.port := by
  unfold AttachOnly at h
  rw [h]
  simp [SameJtag]

theorem AccessOnly.idcode_targetid {s t : State} (h : AccessOnly s t) : t.idcode = s.idcode ∧ t.targetid = s.targetid := by
  unfold AccessOnly at h
  rw [h]; exact ⟨rfl, rfl⟩

theorem PacketOnly.tracking_outcomes {s t : State} (h : PacketOnly s t) :
    SameTracking s t ∧ t.outcomes = s.outcomes := by
  unfold PacketOnly at h
  rw [h]; simp [SameTracking]

/-- A request, an acknowledge or a data phase stays within a packet phase. -/
theorem WireMeaning.packetOnly {f : Format} {op : State → State} (h : WireMeaning f op)
    (hf : f ∈ [Format.req, .ack, .dataW, .dataR]) (s : State) : PacketOnly s (op s) := by
  cases h with
  | request apndp rnw a => exact requestStep_packetOnly apndp rnw a s
  | ack v => exact ackStep_packetOnly v s
  | dataW data => exact dataWStep_packetOnly data s
  | dataR data par => exact dataRStep_packetOnly data par s
  | turn | tmsseq | shift => simp at hf

/-- Settles O22: every command but `dp_attach` stays within an access, every packet phase within a packet. -/
theorem sequencerFrame : Obligations.SequencerFrame := by
  intro i s t h hi
  have hw : (AttachOnly s { t with outcomes := s.outcomes } ∧ i = .dpAttach)
      ∨ (AccessOnly s { t with outcomes := s.outcomes } ∧ i.format = .cmd) ∨ PacketOnly s t := by
    rcases hi with hi | ⟨rnw, addr, v, rfl⟩ | ⟨addr, rfl⟩ | ⟨addr, v, rfl⟩ | ⟨v, rfl⟩ | ⟨apsel, addr, rfl⟩
      | ⟨apsel, addr, v, rfl⟩ | hi
    · simp only [List.mem_cons, List.not_mem_nil, or_false] at hi
      rcases hi with rfl | rfl | rfl | rfl
      · exact .inl ⟨.of_command h rfl (dpAttach_attachOnly s), rfl⟩
      · exact .inr (.inl ⟨.of_command h rfl rfl, rfl⟩)
      · exact .inr (.inl ⟨.of_command h rfl (readRegister_accessOnly s.idcode s), rfl⟩)
      · exact .inr (.inl ⟨.of_command h rfl (readRegister_accessOnly s.targetid s), rfl⟩)
    · exact .inr (.inl ⟨.of_command h rfl (lowAccess_accessOnly rnw addr v s), rfl⟩)
    · exact .inr (.inl ⟨.of_command h rfl (dpRead_accessOnly addr s), rfl⟩)
    · exact .inr (.inl ⟨.of_command h rfl (dpWrite_accessOnly addr v s), rfl⟩)
    · exact .inr (.inl ⟨.of_command h rfl (lowAccess_accessOnly _ _ v s), rfl⟩)
    · exact .inr (.inl ⟨.of_command h rfl (apRead_accessOnly apsel addr s), rfl⟩)
    · exact .inr (.inl ⟨.of_command h rfl (apWrite_accessOnly apsel addr v s), rfl⟩)
    · obtain ⟨op, hop, he⟩ := exec_wire (i := i) fun hc => by simp [hc] at hi
      rw [he] at h; cases h
      exact .inr (.inr (hop.packetOnly hi s))
  have hf : SameJtag s t ∧ t.delayCount = s.delayCount ∧ t.port = s.port := by
    rcases hw with ⟨ht, -⟩ | ⟨ht, -⟩ | ht
    exacts [ht.frame, ht.attachOnly.frame, ht.accessOnly.attachOnly.frame]
  obtain ⟨hj, hd, hp⟩ := hf
  refine ⟨hj, hd, hp, ?_⟩
  rcases hw with ⟨-, rfl⟩ | ⟨ht, hc⟩ | ht
  · exact ⟨fun hn => absurd rfl hn, fun hn => absurd rfl hn⟩
  · exact ⟨fun _ => ht.idcode_targetid, fun hn => absurd hc hn⟩
  · exact ⟨fun _ => ht.accessOnly.idcode_targetid, fun _ => ht.tracking_outcomes⟩

/-! ### The outcomes of a command -/

/-- No body hands over an outcome by itself: the one outcome of a command is the one that ends it (R72). -/
theorem commandBody_outcomes {i : Instr} (hi : i.format = .cmd) (s : State) :
    (commandBody i s).2.outcomes = s.outcomes := by
  cases i with
  | jtagReset => exact (jtagReset_jtagOnly _ s).outcomes
  | jtagNext tms tdi => exact (jtagNext_jtagOnly tms tdi s).outcomes
  | shiftTmsSequence bits count => exact (shiftTmsSequence_jtagOnly bits count s).outcomes
  | shiftData tdi count finalTms => exact (shiftData_jtagOnly _ tdi count finalTms s).outcomes
  | shiftDataDiscardOutput tdi count finalTms => exact (shiftDataDiscardOutput_jtagOnly _ tdi count finalTms s).outcomes
  | seqOut bits count => exact (seqOut_swdOnly bits count s).outcomes
  | seqOutWithParity value count => exact (seqOutWithParity_swdOnly value count s).outcomes
  | seqIn count => exact (seqIn_swdOnly count s).outcomes
  | seqInWithParity count => exact (seqInWithParity_swdOnly count s).outcomes
  | setDelay n => rfl
  | lowAccess rnw addr v => exact (lowAccess_accessOnly rnw addr v s).outcomes
  | dpRead addr => exact (dpRead_accessOnly addr s).outcomes
  | dpWrite addr v => exact (dpWrite_accessOnly addr v s).outcomes
  | dpAbort v => exact (lowAccess_accessOnly false (slotAddr Config.params.aAbort) v s).outcomes
  | apRead apsel addr => exact (apRead_accessOnly apsel addr s).outcomes
  | apWrite apsel addr v => exact (apWrite_accessOnly apsel addr v s).outcomes
  | dpAttach => exact (dpAttach_attachOnly s).outcomes
  | faultRead => rfl
  | idcodeRead => exact congrArg State.outcomes (readRegister_snd s.idcode s)
  | targetidRead => exact congrArg State.outcomes (readRegister_snd s.targetid s)
  | _ => cases hi

/-- The outcomes after a command: those before it and the one of its body. -/
theorem endCommand_commandBody_outcomes {i : Instr} (hi : i.format = .cmd) {s : State} {o : CmdOutcome}
    (ho : (commandBody i s).1 = o) : (endCommand (commandBody i s)).outcomes = s.outcomes ++ [o] :=
  ho ▸ congrArg (· ++ [(commandBody i s).1]) (commandBody_outcomes hi s)

/-! ### Reading the connection registers -/

/-- Settles O60: the three commands hand over a register and touch nothing. -/
theorem connectionRegistersRead : Obligations.ConnectionRegistersRead := by
  intro s hp
  refine ⟨?_, fun v hv => ?_, fun hv => ?_, fun v hv => ?_, fun hv => ?_⟩ <;>
    rw [exec_command rfl, runCommand_idle _ hp]
  · rfl
  all_goals simp [commandBody, readRegister, hv, endCommand]

/-! ### The latch and the ghost are unread -/

/-- The state with other values of the two registers that no rule but `fault_read` reads: the latch (D17) and the ghost
(D30). -/
def withHidden (b : Bool) (x : TapState) (s : State) : State := { s with fault := b, tapShadow := x }

/-- An operation reads neither of the two: from the state with other values of them it gives the same result and the same
next state, but for new values of the two, each a function of its own old value. -/
def HiddenUnread {α : Type} (f : State → α × State) : Prop :=
  ∀ s, ∃ (F : Bool → Bool) (G : TapState → TapState), ∀ b x,
    f (withHidden b x s) = ((f s).1, withHidden (F b) (G x) (f s).2)

theorem HiddenUnread.pure {α : Type} (a : α) : HiddenUnread fun s => (a, s) := fun _ => ⟨id, id, fun _ _ => rfl⟩

/-- An operation that leaves the two as they are, whatever they are. -/
theorem HiddenUnread.of_commute {α : Type} {f : State → α × State}
    (h : ∀ b x s, f (withHidden b x s) = ((f s).1, withHidden b x (f s).2)) : HiddenUnread f :=
  fun s => ⟨id, id, fun b x => h b x s⟩

/-- A choice that reads neither of the two. -/
theorem HiddenUnread.ite {α : Type} {f g : State → α × State} (c : State → Prop) [DecidablePred c]
    (hc : ∀ b x s, c (withHidden b x s) ↔ c s) (hf : HiddenUnread f) (hg : HiddenUnread g) :
    HiddenUnread fun s => if c s then f s else g s := by
  intro s
  by_cases h : c s
  · obtain ⟨F, G, e⟩ := hf s
    exact ⟨F, G, fun b x => by simp only [hc, h, if_true, e]⟩
  · obtain ⟨F, G, e⟩ := hg s
    exact ⟨F, G, fun b x => by simp only [hc, h, if_false, e]⟩

/-- A sequence of two; the second may depend on what the first gave. -/
theorem HiddenUnread.bind {α β : Type} {f : State → α × State} {g : α → State → β × State} (hf : HiddenUnread f)
    (hg : ∀ a, HiddenUnread (g a)) : HiddenUnread fun s => g (f s).1 (f s).2 := by
  intro s
  obtain ⟨F, G, e⟩ := hf s
  obtain ⟨F', G', e'⟩ := hg (f s).1 (f s).2
  exact ⟨F' ∘ F, G' ∘ G, fun b x => by simp only [e, e', Function.comp]⟩

theorem HiddenUnread.map {α β : Type} {f : State → α × State} (g : α → β) (hf : HiddenUnread f) :
    HiddenUnread fun s => (g (f s).1, (f s).2) :=
  hf.bind fun a => .pure (g a)

/-! #### The JTAG family -/

theorem clockTms_hiddenUnread {α : Type} (a : α) (bs : List Bool) : HiddenUnread fun s => (a, clockTms bs s) :=
  fun s => ⟨id, bs.foldl tapNext, fun b x => by simp only [clockTms_eq]; rfl⟩

theorem clockData_hiddenUnread (finalTms : Bool) (bs : List Bool) : HiddenUnread (clockData finalTms bs) := by
  intro s
  by_cases h : bs = []
  · subst h; exact ⟨id, id, fun _ _ => rfl⟩
  · exact ⟨id, (shiftTms finalTms bs.length).foldl tapNext, fun b x => by
      rw [clockData_eq _ _ _ h, clockData_eq _ _ _ h]; rfl⟩

/-- The levels of a data shift depend on the number of outcomes (log 31), which is neither of the two. -/
theorem clockLevels_hiddenUnread (tdi : List Byte) (count : Nat) (finalTms : Bool) :
    HiddenUnread fun s => clockData finalTms (shiftLevels tdi count s.outcomes.length) s :=
  fun s => clockData_hiddenUnread finalTms (shiftLevels tdi count s.outcomes.length) s

theorem jtagReset_hiddenUnread (p : Params) : HiddenUnread (jtagReset p) :=
  fun s => ⟨id, (bitsOf p.softReset p.softResetCount).foldl tapNext, fun b x => by
    simp only [jtagReset, clockTms_eq, pulseTrst_eq]; rfl⟩

theorem jtagNext_hiddenUnread (tms tdi : Bool) : HiddenUnread (jtagNext tms tdi) :=
  fun s => ⟨id, (tapNext · tms), fun b x => by rw [jtagNext_eq, jtagNext_eq]; rfl⟩

theorem shiftTmsSequence_hiddenUnread (bits : Word) (count : Nat) : HiddenUnread (shiftTmsSequence bits count) :=
  .ite (fun _ => _) (fun _ _ _ => Iff.rfl) (.pure _) (clockTms_hiddenUnread _ _)

theorem shiftData_hiddenUnread (p : Params) (tdi : List Byte) (count : Nat) (finalTms : Bool) :
    HiddenUnread (shiftData p tdi count finalTms) :=
  .ite (fun _ => _) (fun _ _ _ => Iff.rfl) (.pure _) <|
    .map (fun bs => CmdOutcome.ok (.buffer (packBits bs))) (clockLevels_hiddenUnread tdi count finalTms)

theorem shiftDataDiscardOutput_hiddenUnread (p : Params) (tdi : List Byte) (count : Nat) (finalTms : Bool) :
    HiddenUnread (shiftDataDiscardOutput p tdi count finalTms) :=
  .ite (fun _ => _) (fun _ _ _ => Iff.rfl) (.pure _) <|
    .map (fun _ => CmdOutcome.ok .nothing) (clockLevels_hiddenUnread tdi count finalTms)

/-! #### The SWD line -/

section
variable (b : Bool) (x : TapState) (s : State)

theorem sendBits_withHidden (bits : Word) (count : Nat) :
    sendBits bits count (withHidden b x s) = withHidden b x (sendBits bits count s) := by
  rw [sendBits_eq, sendBits_eq]; rfl

theorem sendBitsParity_withHidden (value : Word) (count : Nat) :
    sendBitsParity value count (withHidden b x s) = withHidden b x (sendBitsParity value count s) := by
  rw [sendBitsParity_eq, sendBitsParity_eq]; rfl

theorem receiveBits_withHidden (count : Nat) :
    receiveBits count (withHidden b x s) = ((receiveBits count s).1, withHidden b x (receiveBits count s).2) := by
  rw [receiveBits_eq, receiveBits_eq]; rfl

theorem receiveBitsParity_withHidden (count : Nat) :
    receiveBitsParity count (withHidden b x s)
      = ((receiveBitsParity count s).1, withHidden b x (receiveBitsParity count s).2) := by
  rw [receiveBitsParity_eq, receiveBitsParity_eq]; rfl

theorem turnLine_withHidden : turnLine (withHidden b x s) = withHidden b x (turnLine s) := by
  simp only [turnLine_eq, turnaround_eq]; rfl

theorem sendRequest_withHidden (apndp rnw : Bool) (a : BitVec 2) :
    sendRequest Config.params apndp rnw a (withHidden b x s)
      = withHidden b x (sendRequest Config.params apndp rnw a s) := by
  rw [sendRequest_eq, sendRequest_eq]; rfl

theorem presentSwdio_withHidden (bs : List Bool) :
    presentSwdio bs (withHidden b x s) = withHidden b x (presentSwdio bs s) := rfl

theorem receiveAck_withHidden : receiveAck (withHidden b x s) = withHidden b x (receiveAck s) := by
  rw [receiveAck_eq, receiveAck_eq]; rfl

theorem writeDataPhase_withHidden (data : Word) :
    writeDataPhase data (withHidden b x s) = withHidden b x (writeDataPhase data s) := by
  rw [writeDataPhase_eq, writeDataPhase_eq]; rfl

theorem readDataPhase_withHidden : readDataPhase (withHidden b x s) = withHidden b x (readDataPhase s) := by
  rw [readDataPhase_eq, readDataPhase_eq]; rfl

end

theorem seqOut_hiddenUnread (bits : Word) (count : Nat) : HiddenUnread (seqOut bits count) :=
  .ite (fun _ => _) (fun _ _ _ => Iff.rfl) (.pure _) <|
    .of_commute fun b x s => congrArg _ (sendBits_withHidden b x s bits count)

theorem seqOutWithParity_hiddenUnread (value : Word) (count : Nat) : HiddenUnread (seqOutWithParity value count) :=
  .ite (fun _ => _) (fun _ _ _ => Iff.rfl) (.pure _) <|
    .of_commute fun b x s => congrArg _ (sendBitsParity_withHidden b x s value count)

theorem seqIn_hiddenUnread (count : Nat) : HiddenUnread (seqIn count) :=
  .ite (fun _ => _) (fun _ _ _ => Iff.rfl) (.pure _) <|
    .map (fun v => CmdOutcome.ok (.word v)) (.of_commute fun b x s => receiveBits_withHidden b x s count)

theorem seqInWithParity_hiddenUnread (count : Nat) : HiddenUnread (seqInWithParity count) :=
  .ite (fun _ => _) (fun _ _ _ => Iff.rfl) (.pure _) <|
    .map (fun r => CmdOutcome.ok (.wordParity r.1 r.2)) (.of_commute fun b x s => receiveBitsParity_withHidden b x s count)

/-! #### Accesses -/

theorem swdTransaction_withHidden (apndp rnw : Bool) (a : BitVec 2) (v : Word) (b : Bool) (x : TapState) (s : State) :
    swdTransaction Config.params apndp rnw a v (withHidden b x s)
      = ((swdTransaction Config.params apndp rnw a v s).1,
        withHidden b x (swdTransaction Config.params apndp rnw a v s).2) := by
  have hd (t : State) : dataPhase rnw v (withHidden b x t) = withHidden b x (dataPhase rnw v t) := by
    cases rnw
    · exact writeDataPhase_withHidden b x t v
    · exact readDataPhase_withHidden b x t
  have ha (t : State) : (withHidden b x t).ack = t.ack := rfl
  simp only [swdTransaction, sendRequest_withHidden, receiveAck_withHidden, ha, hd]
  split <;> rfl

theorem attempts_withHidden (apndp rnw : Bool) (a : BitVec 2) (v : Word) (more : Nat) (b : Bool) (x : TapState)
    (s : State) :
    attempts Config.params apndp rnw a v more (withHidden b x s)
      = ((attempts Config.params apndp rnw a v more s).1,
        withHidden b x (attempts Config.params apndp rnw a v more s).2) := by
  have hattempt (t : State) : attempt Config.params apndp rnw a v (withHidden b x t)
      = ((attempt Config.params apndp rnw a v t).1, withHidden b x (attempt Config.params apndp rnw a v t).2) :=
    swdTransaction_withHidden apndp rnw a v b x { t with phase := .req, tries := t.tries + 1 }
  induction more generalizing s with
  | zero => exact hattempt s
  | succ more ih =>
    simp only [attempts, hattempt, ih]
    split <;> rfl

/-- The end of an access sets the latch, clears it or leaves it, without reading it (R143). -/
theorem finishAccess_hiddenUnread (apndp rnw : Bool) (a : BitVec 2) (v : Word) (c : AckClass) :
    HiddenUnread (finishAccess Config.params apndp rnw a v c) := by
  intro s
  cases c with
  | ok =>
    refine ⟨fun b => if apndp = false ∧ rnw = false ∧ a = 0 then false else b, id, fun b x => ?_⟩
    simp only [finishAccess, clearFaultOnAbort_eq, trackSelect_eq]; rfl
  | fault =>
    refine ⟨fun _ => true, id, fun b x => ?_⟩
    simp only [finishAccess, untrackSelect_eq]; rfl
  | wait | invalid =>
    refine ⟨id, id, fun b x => ?_⟩
    simp only [finishAccess, untrackSelect_eq]; rfl

theorem lowAccess_hiddenUnread (rnw : Bool) (addr : BitVec 9) (v : Word) :
    HiddenUnread (lowAccess Config.params rnw addr v) := by
  have hloop : HiddenUnread fun s => attempts Config.params (addrApndp addr) rnw (addrSlot addr) v
      Config.params.open5.retryPred { s with tries := 0 } :=
    .of_commute fun b x s => attempts_withHidden _ _ _ _ _ b x { s with tries := 0 }
  have hend (c : AckClass) : HiddenUnread fun s =>
      finishAccess Config.params (addrApndp addr) rnw (addrSlot addr) v c { s with phase := .done } :=
    fun s => finishAccess_hiddenUnread _ _ _ _ c { s with phase := .done }
  exact .ite (fun _ => _) (fun _ _ _ => Iff.rfl) (hloop.bind hend) (.pure _)

/-- A bank step tests and writes the tracking, which is neither of the two. -/
theorem ensureSelectDp_hiddenUnread (bank : BitVec 4) : HiddenUnread (ensureSelectDp Config.params bank) :=
  .ite (fun s => s.selValid ∧ s.selDpbank = bank) (fun _ _ _ => Iff.rfl) (.pure _) fun s =>
    lowAccess_hiddenUnread false _ (if s.selValid then selectValue s.selApsel s.selApbank bank else selectValue 0 0 bank) s

theorem ensureSelectAp_hiddenUnread (apsel : BitVec 8) (bank : BitVec 4) :
    HiddenUnread (ensureSelectAp Config.params apsel bank) :=
  .ite (fun s => s.selValid ∧ s.selApsel = apsel ∧ s.selApbank = bank) (fun _ _ _ => Iff.rfl) (.pure _) fun s =>
    lowAccess_hiddenUnread false _ (selectValue apsel bank (if s.selValid then s.selDpbank else 0)) s

theorem HiddenUnread.andThenOk {f g : State → CmdOutcome × State} (hf : HiddenUnread f) (hg : HiddenUnread g) :
    HiddenUnread fun s => andThenOk (f s) g :=
  hf.bind (g := fun o s => Machine.andThenOk (o, s) g) fun o => by
    cases o with
    | ok v => exact hg
    | _ => exact .pure _

theorem dpRead_hiddenUnread (addr : Byte) : HiddenUnread (dpRead Config.params addr) :=
  .ite (fun _ => _) (fun _ _ _ => Iff.rfl)
    ((ensureSelectDp_hiddenUnread _).andThenOk (lowAccess_hiddenUnread _ _ _)) (.pure _)

theorem dpWrite_hiddenUnread (addr : Byte) (v : Word) : HiddenUnread (dpWrite Config.params addr v) :=
  .ite (fun _ => _) (fun _ _ _ => Iff.rfl)
    (.ite (fun _ => _) (fun _ _ _ => Iff.rfl) (lowAccess_hiddenUnread _ _ _)
      ((ensureSelectDp_hiddenUnread _).andThenOk (lowAccess_hiddenUnread _ _ _)))
    (.pure _)

theorem apRead_hiddenUnread (apsel addr : Byte) : HiddenUnread (apRead Config.params apsel addr) :=
  .ite (fun _ => _) (fun _ _ _ => Iff.rfl)
    ((ensureSelectAp_hiddenUnread _ _).andThenOk (lowAccess_hiddenUnread _ _ _)) (.pure _)

theorem apWrite_hiddenUnread (apsel addr : Byte) (v : Word) : HiddenUnread (apWrite Config.params apsel addr v) :=
  .ite (fun _ => _) (fun _ _ _ => Iff.rfl)
    ((ensureSelectAp_hiddenUnread _ _).andThenOk (lowAccess_hiddenUnread _ _ _)) (.pure _)

theorem loadTargetid_hiddenUnread : HiddenUnread (loadTargetid Config.params) := by
  intro s
  obtain ⟨F, G, e⟩ := dpRead_hiddenUnread targetidAddr s
  refine ⟨F, G, fun b x => ?_⟩
  simp only [loadTargetid, e]
  obtain ⟨o, t⟩ := dpRead Config.params targetidAddr s
  cases o with
  | ok v => cases v <;> rfl
  | _ => rfl

/-- `dp_attach` clears the latch before its first access, so its old value is lost at once (R154). -/
theorem dpAttach_hiddenUnread : HiddenUnread (dpAttach Config.params) := by
  intro s
  have hs (b : Bool) (x : TapState) :
      { withHidden b x s with fault := false, selValid := false, idcode := none, targetid := none }
        = withHidden false x { s with fault := false, selValid := false, idcode := none, targetid := none } := rfl
  obtain ⟨F, G, e⟩ := lowAccess_hiddenUnread true (slotAddr Config.params.aIdcode) 0
    { s with fault := false, selValid := false, idcode := none, targetid := none }
  simp only [dpAttach, hs, e]
  obtain ⟨o, t⟩ := lowAccess Config.params true (slotAddr Config.params.aIdcode) 0
    { s with fault := false, selValid := false, idcode := none, targetid := none }
  cases o with
  | ok v =>
    cases v with
    | word w =>
      by_cases hv : Config.params.open5.dpV2 = true
      · obtain ⟨F', G', e'⟩ := loadTargetid_hiddenUnread { t with idcode := some w }
        exact ⟨fun _ => F' (F false), G' ∘ G, fun b x => by simp only [hv, if_true]; exact e' _ _⟩
      · exact ⟨fun _ => F false, G, fun b x => by simp only [hv]; rfl⟩
    | _ => exact ⟨fun _ => F false, G, fun _ _ => rfl⟩
  | _ => exact ⟨fun _ => F false, G, fun _ _ => rfl⟩

/-! #### Packet phases -/

@[simp] theorem withHidden_phase (b : Bool) (x : TapState) (s : State) : (withHidden b x s).phase = s.phase := rfl

theorem requestStep_hiddenUnread (apndp rnw : Bool) (a : BitVec 2) :
    HiddenUnread fun s => ((), requestStep apndp rnw a s) := by
  refine .of_commute fun b x s => ?_
  simp only [requestStep, sendRequest_withHidden, withHidden_phase]
  split <;> rfl

/-- Row S_ACK sets the latch or leaves it, without reading it. -/
theorem leaveAck_hiddenUnread : HiddenUnread fun s => ((), leaveAck Config.params s) := by
  intro s
  have ha (b : Bool) (x : TapState) : (withHidden b x s).ack = s.ack := rfl
  cases h : decodeAck Config.params s.ack with
  | fault => exact ⟨fun _ => true, id, fun b x => by simp only [leaveAck, ha, h]; rfl⟩
  | ok | wait | invalid => exact ⟨id, id, fun b x => by simp only [leaveAck, ha, h]; rfl⟩

theorem ackStep_hiddenUnread (v : BitVec 3) : HiddenUnread fun s => ((), ackStep v s) := by
  intro s
  by_cases h : s.phase = .ack
  · obtain ⟨F, G, e⟩ := leaveAck_hiddenUnread (receiveAck (presentSwdio (bitsOf v 3) s))
    refine ⟨F, G, fun b x => ?_⟩
    simp only [ackStep, withHidden_phase, presentSwdio_withHidden, receiveAck_withHidden, h, if_true]
    exact e b x
  · refine ⟨id, id, fun b x => ?_⟩
    simp only [ackStep, withHidden_phase, presentSwdio_withHidden, receiveAck_withHidden, h, if_false]
    rfl

theorem dataWStep_hiddenUnread (data : Word) : HiddenUnread fun s => ((), dataWStep data s) := by
  refine .of_commute fun b x s => ?_
  simp only [dataWStep, writeDataPhase_withHidden, withHidden_phase]
  split <;> rfl

theorem dataRStep_hiddenUnread (data : Word) (par : Bool) : HiddenUnread fun s => ((), dataRStep data par s) := by
  refine .of_commute fun b x s => ?_
  simp only [dataRStep, presentSwdio_withHidden, readDataPhase_withHidden, withHidden_phase]
  split <;> rfl

/-! #### Instructions -/

theorem WireMeaning.hiddenUnread {f : Format} {op : State → State} (h : WireMeaning f op) :
    HiddenUnread fun s => ((), op s) := by
  cases h with
  | request apndp rnw a => exact requestStep_hiddenUnread apndp rnw a
  | ack v => exact ackStep_hiddenUnread v
  | dataW data => exact dataWStep_hiddenUnread data
  | dataR data par => exact dataRStep_hiddenUnread data par
  | turn => exact .of_commute fun b x s => congrArg _ (turnLine_withHidden b x s)
  | tmsseq bits count => exact clockTms_hiddenUnread () (bitsOf bits count)
  | shift tdi count finalTms => exact (clockLevels_hiddenUnread tdi count finalTms).map fun _ => ()

/-- `idcode_read` and `targetid_read`, for a register that is neither of the two. -/
theorem readRegister_hiddenUnread (r : State → Option Word) (h : ∀ b x s, r (withHidden b x s) = r s) :
    HiddenUnread fun s => readRegister (r s) s := by
  refine .of_commute fun b x s => ?_
  rw [h]
  cases r s <;> rfl

theorem commandBody_hiddenUnread {i : Instr} (hi : i.format = .cmd) (h : i ≠ .faultRead) :
    HiddenUnread (commandBody i) := by
  cases i with
  | jtagReset => exact jtagReset_hiddenUnread _
  | jtagNext tms tdi => exact (jtagNext_hiddenUnread tms tdi).map fun tdo => CmdOutcome.ok (.bit tdo)
  | shiftTmsSequence bits count => exact shiftTmsSequence_hiddenUnread bits count
  | shiftData tdi count finalTms => exact shiftData_hiddenUnread _ tdi count finalTms
  | shiftDataDiscardOutput tdi count finalTms => exact shiftDataDiscardOutput_hiddenUnread _ tdi count finalTms
  | seqOut bits count => exact seqOut_hiddenUnread bits count
  | seqOutWithParity value count => exact seqOutWithParity_hiddenUnread value count
  | seqIn count => exact seqIn_hiddenUnread count
  | seqInWithParity count => exact seqInWithParity_hiddenUnread count
  | setDelay n => exact .of_commute fun _ _ _ => rfl
  | lowAccess rnw addr v => exact lowAccess_hiddenUnread rnw addr v
  | dpRead addr => exact dpRead_hiddenUnread addr
  | dpWrite addr v => exact dpWrite_hiddenUnread addr v
  | dpAbort v => exact lowAccess_hiddenUnread false (slotAddr Config.params.aAbort) v
  | apRead apsel addr => exact apRead_hiddenUnread apsel addr
  | apWrite apsel addr v => exact apWrite_hiddenUnread apsel addr v
  | dpAttach => exact dpAttach_hiddenUnread
  | faultRead => exact absurd rfl h
  | idcodeRead => exact readRegister_hiddenUnread State.idcode fun _ _ _ => rfl
  | targetidRead => exact readRegister_hiddenUnread State.targetid fun _ _ _ => rfl
  | _ => cases hi

/-- With other values of the latch and the ghost every instruction but `fault_read` does the same, these two apart. -/
theorem exec_withHidden {i : Instr} {s t : State} (hi : i ≠ .faultRead) (h : exec i s = .next t) :
    ∃ (F : Bool → Bool) (G : TapState → TapState), ∀ b x,
      exec i (withHidden b x s) = .next (withHidden (F b) (G x) t) := by
  by_cases hc : i.format = .cmd
  · obtain ⟨hp, rfl⟩ := exec_command_next hc h
    obtain ⟨F, G, e⟩ := commandBody_hiddenUnread hc hi s
    refine ⟨F, G, fun b x => ?_⟩
    rw [exec_command hc, runCommand_idle (s := withHidden b x s) _ hp, e]; rfl
  · obtain ⟨op, hop, he⟩ := exec_wire hc
    obtain ⟨F, G, e⟩ := hop.hiddenUnread s
    refine ⟨F, G, fun b x => ?_⟩
    rw [he] at h ⊢
    cases h
    exact congrArg (fun r => Host.Outcome.next r.2) (e b x)

/-- A run leaves the latch and the ghost at values that depend on their own old value alone, so a change of one of the two
does not show in the other. -/
theorem exec_hidden_functions {i : Instr} {s t : State} (hi : i ≠ .faultRead) (h : exec i s = .next t) :
    ∃ (F : Bool → Bool) (G : TapState → TapState), t.fault = F s.fault ∧ t.tapShadow = G s.tapShadow ∧
      ∀ b x, exec i (withHidden b x s) = .next (withHidden (F b) (G x) t) := by
  obtain ⟨F, G, e⟩ := exec_withHidden hi h
  have ht : t = withHidden (F s.fault) (G s.tapShadow) t := Host.Outcome.next.inj (h.symm.trans (e s.fault s.tapShadow))
  exact ⟨F, G, congrArg State.fault ht, congrArg State.tapShadow ht, e⟩

/-- Settles O13: of the two hidden registers the latch is changed and the ghost keeps its value. -/
theorem faultGatesNothing : Obligations.FaultGatesNothing := by
  intro i s t b hi h
  obtain ⟨F, G, -, hx, e⟩ := exec_hidden_functions hi h
  refine ⟨F b, (e b s.tapShadow).trans ?_⟩
  rw [← hx]; rfl

/-- Settles O14: of the two hidden registers the ghost is changed and the latch keeps its value; `fault_read`, which reads the
latch, is apart. -/
theorem ghostIsUnread : Obligations.GhostIsUnread := by
  intro i s t x h
  by_cases hi : i = .faultRead
  · subst hi
    obtain ⟨hp, rfl⟩ := exec_command_next rfl h
    exact ⟨x, runCommand_idle (s := { s with tapShadow := x }) _ hp⟩
  · obtain ⟨F, G, hb, -, e⟩ := exec_hidden_functions hi h
    refine ⟨G x, (e s.fault x).trans ?_⟩
    rw [← hb]; rfl

/-! ### When the fault latch moves -/

/-- How a command that ended with `r` can have moved the latch from its value `b` (10_state.md R20, 43_dp_sequencer.md R143);
`abort` says that it may have written ABORT. -/
inductive LatchMove (abort : Prop) (b : Bool) (r : CmdOutcome × State) : Prop
  /-- Not at all. -/
  | kept (h : r.2.fault = b)
  /-- Set, by an acknowledge FAULT, which ended the command. -/
  | raised (hf : r.2.fault = true) (ha : r.2.ack = 4) (ho : r.1 = .protocolFault)
  /-- Cleared, by a write to ABORT acknowledged OK, which ended the command. -/
  | cleared (h : abort) (hf : r.2.fault = false) (hr : r.2.req = 0x81) (ha : r.2.ack = 1) (ho : r.1 = .ok .nothing)

theorem LatchMove.mono {P Q : Prop} {b : Bool} {r : CmdOutcome × State} (h : LatchMove P b r) (hPQ : P → Q) :
    LatchMove Q b r := by
  cases h with
  | kept h => exact .kept h
  | raised hf ha ho => exact .raised hf ha ho
  | cleared h hf hr ha ho => exact .cleared (hPQ h) hf hr ha ho

/-- One access moves the latch by its acknowledge, and clears it only where it writes ABORT. -/
theorem lowAccess_latchMove (rnw : Bool) (addr : BitVec 9) (v : Word) (s : State) :
    LatchMove (addrApndp addr = false ∧ rnw = false ∧ addrSlot addr = 0) s.fault (lowAccess Config.params rnw addr v s) := by
  rcases lowAccess_cases rnw addr v s with ⟨-, h⟩ | ⟨-, n, pin, -, ⟨ack, -, -, h⟩ | ⟨-, w, par, h⟩ | ⟨hw, h⟩⟩ <;>
    rw [h]
  · exact .kept rfl
  · by_cases h4 : ack = 4
    · subst h4; exact .raised rfl rfl rfl
    · exact .kept (if_neg h4)
  · exact .kept rfl
  · by_cases ha : addrApndp addr = false ∧ addrSlot addr = 0
    · obtain ⟨hp, hs⟩ := ha
      refine .cleared ⟨hp, hw, hs⟩ (if_pos ⟨hp, hs⟩) ?_ rfl rfl
      simp only [afterWrite, hp, hs]; rfl
    · exact .kept (if_neg ha)

theorem lowAccess_read_latchMove (addr : BitVec 9) (v : Word) (s : State) :
    LatchMove False s.fault (lowAccess Config.params true addr v s) :=
  (lowAccess_latchMove true addr v s).mono fun ⟨_, h, _⟩ => Bool.noConfusion h

/-- A SELECT write is no ABORT write. -/
theorem writeSelect_latchMove (v : Word) (s : State) : LatchMove False s.fault (writeSelect Config.params v s) :=
  (lowAccess_latchMove false _ v s).mono fun ⟨_, _, h⟩ => absurd h (by decide)

theorem ensureSelectDp_latchMove (bank : BitVec 4) (s : State) :
    LatchMove False s.fault (ensureSelectDp Config.params bank s) := by
  unfold ensureSelectDp
  split
  · exact .kept rfl
  · exact writeSelect_latchMove _ s

theorem ensureSelectAp_latchMove (apsel : BitVec 8) (bank : BitVec 4) (s : State) :
    LatchMove False s.fault (ensureSelectAp Config.params apsel bank s) := by
  unfold ensureSelectAp
  split
  · exact .kept rfl
  · exact writeSelect_latchMove _ s

/-- What ended Ok and wrote no ABORT left the latch as it was. -/
theorem LatchMove.fault_of_ok {b : Bool} {r : CmdOutcome × State} {v : Value} (h : LatchMove False b r)
    (hv : r.1 = .ok v) : r.2.fault = b := by
  cases h with
  | kept h => exact h
  | raised _ _ ho => rw [ho] at hv; cases hv
  | cleared h => exact h.elim

/-- After a bank step that ended Ok the latch is as before it, so the access after it moves it alone. -/
theorem LatchMove.andThenOk {P : Prop} {b : Bool} {r : CmdOutcome × State} {next : State → CmdOutcome × State}
    (h : LatchMove False b r) (h' : LatchMove P r.2.fault (next r.2)) : LatchMove P b (andThenOk r next) := by
  rcases andThenOk_cases r next with ⟨e, -⟩ | ⟨e, v, hv⟩ <;> rw [e]
  · exact h.mono False.elim
  · rwa [h.fault_of_ok hv] at h'

theorem dpRead_latchMove (addr : Byte) (s : State) : LatchMove False s.fault (dpRead Config.params addr s) := by
  unfold dpRead
  split
  · exact (ensureSelectDp_latchMove _ s).andThenOk (lowAccess_read_latchMove _ _ _)
  · exact .kept rfl

theorem dpWrite_latchMove (addr : Byte) (v : Word) (s : State) :
    LatchMove True s.fault (dpWrite Config.params addr v s) := by
  unfold dpWrite
  split
  · split
    · exact (lowAccess_latchMove _ _ _ s).mono fun _ => trivial
    · exact (ensureSelectDp_latchMove _ s).andThenOk ((lowAccess_latchMove _ _ _ _).mono fun _ => trivial)
  · exact .kept rfl

theorem apRead_latchMove (apsel addr : Byte) (s : State) : LatchMove True s.fault (apRead Config.params apsel addr s) := by
  unfold apRead
  split
  · exact (ensureSelectAp_latchMove _ _ s).andThenOk ((lowAccess_latchMove _ _ _ _).mono fun _ => trivial)
  · exact .kept rfl

theorem apWrite_latchMove (apsel addr : Byte) (v : Word) (s : State) :
    LatchMove True s.fault (apWrite Config.params apsel addr v s) := by
  unfold apWrite
  split
  · exact (ensureSelectAp_latchMove _ _ s).andThenOk ((lowAccess_latchMove _ _ _ _).mono fun _ => trivial)
  · exact .kept rfl

/-- `dp_attach` clears the latch by itself, and from there moves it as reads do (R154). -/
theorem dpAttach_latchMove (s : State) : LatchMove False false (dpAttach Config.params s) := by
  obtain ⟨r, hr, h⟩ := dpAttach_cases s
  have h1 : LatchMove False false r := by
    rw [hr]
    exact lowAccess_read_latchMove (slotAddr 0) 0
      { s with fault := false, selValid := false, idcode := none, targetid := none }
  rcases h with ⟨e, -⟩ | ⟨v, hv, ⟨-, e⟩ | ⟨-, r2, hr2, h⟩⟩
  · rwa [e]
  · rw [e]; exact .kept (h1.fault_of_ok hv)
  · have h2 : LatchMove False false r2 := by
      rw [hr2, ← h1.fault_of_ok hv]
      exact dpRead_latchMove targetidAddr { r.2 with idcode := some v }
    rcases h with ⟨e, -⟩ | ⟨w, hw, e⟩ <;> rw [e]
    · exact h2
    · exact .kept (h2.fault_of_ok hw)

theorem commandBody_latchMove {i : Instr} (hi : i.format = .cmd) (h : i ≠ .dpAttach) (s : State) :
    LatchMove True s.fault (commandBody i s) := by
  cases i with
  | jtagReset => exact .kept (jtagReset_jtagOnly _ s).fault
  | jtagNext tms tdi => exact .kept (jtagNext_jtagOnly tms tdi s).fault
  | shiftTmsSequence bits count => exact .kept (shiftTmsSequence_jtagOnly bits count s).fault
  | shiftData tdi count finalTms => exact .kept (shiftData_jtagOnly _ tdi count finalTms s).fault
  | shiftDataDiscardOutput tdi count finalTms => exact .kept (shiftDataDiscardOutput_jtagOnly _ tdi count finalTms s).fault
  | seqOut bits count => exact .kept (seqOut_swdOnly bits count s).fault
  | seqOutWithParity value count => exact .kept (seqOutWithParity_swdOnly value count s).fault
  | seqIn count => exact .kept (seqIn_swdOnly count s).fault
  | seqInWithParity count => exact .kept (seqInWithParity_swdOnly count s).fault
  | setDelay n => exact .kept rfl
  | lowAccess rnw addr v => exact (lowAccess_latchMove rnw addr v s).mono fun _ => trivial
  | dpRead addr => exact (dpRead_latchMove addr s).mono False.elim
  | dpWrite addr v => exact dpWrite_latchMove addr v s
  | dpAbort v => exact (lowAccess_latchMove false (slotAddr Config.params.aAbort) v s).mono fun _ => trivial
  | apRead apsel addr => exact apRead_latchMove apsel addr s
  | apWrite apsel addr v => exact apWrite_latchMove apsel addr v s
  | dpAttach => exact absurd rfl h
  | faultRead => exact .kept rfl
  | idcodeRead => exact .kept (congrArg State.fault (readRegister_snd s.idcode s))
  | targetidRead => exact .kept (congrArg State.fault (readRegister_snd s.targetid s))
  | _ => cases hi

theorem decodeAck_eq_fault_iff (ack : BitVec 3) : decodeAck Config.params ack = .fault ↔ ack = 4 := by
  rw [decodeAck_params]; revert ack; decide

/-- Row S_ACK sets the latch on an acknowledge FAULT and leaves it on any other. -/
theorem leaveAck_fault (s : State) :
    (leaveAck Config.params s).fault = s.fault
      ∨ (leaveAck Config.params s).fault = true ∧ (leaveAck Config.params s).ack = 4 := by
  unfold leaveAck
  cases h : decodeAck Config.params s.ack with
  | fault => exact .inr ⟨rfl, (decodeAck_eq_fault_iff s.ack).mp h⟩
  | ok | wait | invalid => exact .inl rfl

/-- What is no command clears the latch never, and sets it only on an acknowledge FAULT. -/
theorem WireMeaning.fault {f : Format} {op : State → State} (h : WireMeaning f op) (s : State) :
    (op s).fault = s.fault ∨ (op s).fault = true ∧ (op s).ack = 4 := by
  cases h with
  | request apndp rnw a =>
    rw [requestStep, sendRequest_eq]; split <;> exact .inl rfl
  | ack v =>
    have hr : (receiveAck (presentSwdio (bitsOf v 3) s)).fault = s.fault := by rw [receiveAck_eq]; rfl
    unfold ackStep
    split
    · exact hr ▸ leaveAck_fault (receiveAck (presentSwdio (bitsOf v 3) s))
    · exact .inl hr
  | dataW data =>
    rw [dataWStep, writeDataPhase_eq]; split <;> exact .inl rfl
  | dataR data par =>
    rw [dataRStep, readDataPhase_eq]; split <;> exact .inl rfl
  | turn => exact .inl (turnLine_swdOnly s).fault
  | tmsseq bits count => exact .inl (clockTms_jtagOnly _ s).fault
  | shift tdi count finalTms => exact .inl (clockData_jtagOnly _ _ s).fault

/-- Settles O15: a command moves the latch in one of three ways, of which one sets it; a wire item only by its acknowledge. -/
theorem faultRisesOnlyOnFaultAck : Obligations.FaultRisesOnlyOnFaultAck := by
  intro i s t h hs ht
  by_cases hc : i.format = .cmd
  · obtain ⟨-, rfl⟩ := exec_command_next hc h
    have hm : LatchMove True false (commandBody i s) := by
      by_cases hi : i = .dpAttach
      · subst hi; exact (dpAttach_latchMove s).mono False.elim
      · exact hs ▸ commandBody_latchMove hc hi s
    cases hm with
    | kept hf => exact Bool.noConfusion (hf.symm.trans ht)
    | raised _ ha ho => exact ⟨ha, fun _ => endCommand_commandBody_outcomes hc ho⟩
    | cleared _ hf => exact Bool.noConfusion (hf.symm.trans ht)
  · obtain ⟨op, hop, he⟩ := exec_wire hc
    rw [he] at h; cases h
    rcases hop.fault s with hf | ⟨-, ha⟩
    · exact Bool.noConfusion (ht.symm.trans (hf.trans hs))
    · exact ⟨ha, fun hn => absurd hn hc⟩

/-- Settles O16: of the three ways a command moves the latch one clears it; a wire item never does. -/
theorem faultFallsOnlyOnAbortOrAttach : Obligations.FaultFallsOnlyOnAbortOrAttach := by
  intro i s t h hs ht
  by_cases hi : i = .dpAttach
  · exact .inl hi
  by_cases hc : i.format = .cmd
  · obtain ⟨-, rfl⟩ := exec_command_next hc h
    cases commandBody_latchMove hc hi s with
    | kept hf => exact Bool.noConfusion (ht.symm.trans (hf.trans hs))
    | raised hf => exact Bool.noConfusion (ht.symm.trans hf)
    | cleared _ _ hr ha ho => exact .inr ⟨hr, ha, endCommand_commandBody_outcomes hc ho⟩
  · obtain ⟨op, hop, he⟩ := exec_wire hc
    rw [he] at h; cases h
    rcases hop.fault s with hf | ⟨hf, -⟩
    · exact Bool.noConfusion (ht.symm.trans (hf.trans hs))
    · exact Bool.noConfusion (ht.symm.trans hf)

end Sys2Proof.Machine
end

section
/-! PROOFS. The family 20_memory.md: the alignment of an address. -/

namespace Sys2Proof.Machine

theorem addrAligned_eq_false_iff {w : Nat} (addr : BitVec w) : addrAligned addr = false ↔ addr.extractLsb' 0 2 ≠ 0 := by
  rw [Ne, ← addrAligned_iff, Bool.not_eq_true]

theorem lowAccess_misaligned {addr : BitVec 9} (h : addrAligned addr = false) (rnw : Bool) (v : Word) (s : State) :
    lowAccess Config.params rnw addr v s = (.refused .badAddress, s) := if_neg (ne_true_of_eq_false h)

theorem dpRead_misaligned {addr : Byte} (h : addrAligned addr = false) (s : State) :
    dpRead Config.params addr s = (.refused .badAddress, s) := if_neg (ne_true_of_eq_false h)

theorem dpWrite_misaligned {addr : Byte} (h : addrAligned addr = false) (v : Word) (s : State) :
    dpWrite Config.params addr v s = (.refused .badAddress, s) := if_neg (ne_true_of_eq_false h)

theorem apRead_misaligned {addr : Byte} (h : addrAligned addr = false) (apsel : Byte) (s : State) :
    apRead Config.params apsel addr s = (.refused .badAddress, s) := if_neg (ne_true_of_eq_false h)

theorem apWrite_misaligned {addr : Byte} (h : addrAligned addr = false) (apsel : Byte) (v : Word) (s : State) :
    apWrite Config.params apsel addr v s = (.refused .badAddress, s) := if_neg (ne_true_of_eq_false h)

/-- A command whose body refuses and leaves the state alone hands over its refusal and changes nothing else (R175). -/
theorem exec_of_body_refused {i : Instr} {s : State} {why : Reason} (hi : i.format = .cmd) (hp : s.phase = .idle)
    (h : commandBody i s = (.refused why, s)) :
    exec i s = .next { s with outcomes := s.outcomes ++ [.refused why] } := by
  rw [exec_command hi, runCommand_idle _ hp, h]; rfl

/-- Settles O51: each of the five commands tests its whole address operand before anything else. -/
theorem misalignedAddressRefused : Obligations.MisalignedAddressRefused := by
  intro rnw addr9 apsel addr value s hp
  refine ⟨fun h => ?_, fun h i hi => ?_⟩
  · exact exec_of_body_refused rfl hp (lowAccess_misaligned ((addrAligned_eq_false_iff addr9).mpr h) rnw value s)
  · have ha := (addrAligned_eq_false_iff addr).mpr h
    simp only [List.mem_cons, List.not_mem_nil, or_false] at hi
    rcases hi with rfl | rfl | rfl | rfl
    · exact exec_of_body_refused rfl hp (dpRead_misaligned ha s)
    · exact exec_of_body_refused rfl hp (dpWrite_misaligned ha value s)
    · exact exec_of_body_refused rfl hp (apRead_misaligned ha apsel s)
    · exact exec_of_body_refused rfl hp (apWrite_misaligned ha apsel value s)

end Sys2Proof.Machine
end

section
/-! PROOFS. The family 30_encoding.md: the decoder reads encodings and nothing else, a step runs what it reads, and what the
wire formats do on the pins. -/

namespace Sys2Proof
open Machine

/-! ### Operands: what is read is what was written -/

theorem decoded_bind_eq_ok_iff {α β : Type} {x : Except DecodeError α} {k : α → Except DecodeError β} {y : β} :
    (x >>= k) = .ok y ↔ ∃ a, x = .ok a ∧ k a = .ok y :=
  ⟨decoded_bind, fun ⟨_, hx, hk⟩ => by rw [hx]; exact hk⟩

theorem takeByte_eq_ok_iff {bs rest : List Byte} {b : Byte} : takeByte bs = .ok (b, rest) ↔ b :: rest = bs :=
  ⟨takeByte_ok, by rintro rfl; exact takeByte_cons b rest⟩

theorem takeBit_eq_ok_iff {bs rest : List Byte} {b : Bool} : takeBit bs = .ok (b, rest) ↔ encodeBit b ++ rest = bs :=
  ⟨takeBit_ok, by rintro rfl; exact takeBit_encode b rest⟩

theorem takeAddr_eq_ok_iff {bs rest : List Byte} {a : BitVec 9} :
    takeAddr bs = .ok (a, rest) ↔ encodeAddr a ++ rest = bs :=
  ⟨takeAddr_ok, by rintro rfl; exact takeAddr_encode a rest⟩

theorem takeWord_eq_ok_iff {bs rest : List Byte} {v : Word} : takeWord bs = .ok (v, rest) ↔ bytesOfWord v ++ rest = bs :=
  ⟨takeWord_ok, by rintro rfl; exact takeWord_encode v rest⟩

theorem takeCount_eq_ok_iff {bs rest : List Byte} {n : Nat} :
    takeCount bs = .ok (n, rest) ↔ encodeCount n ++ rest = bs ∧ countFits n = true := by
  rw [countFits, decide_eq_true_iff]
  exact ⟨takeCount_ok, by rintro ⟨rfl, h⟩; exact takeCount_encode h rest⟩

theorem takeBuffer_eq_ok_iff {bs rest buf : List Byte} :
    takeBuffer bs = .ok (buf, rest) ↔ encodeBuffer buf ++ rest = bs ∧ bufferFits buf = true := by
  rw [bufferFits, decide_eq_true_iff]
  exact ⟨takeBuffer_ok, by rintro ⟨rfl, h⟩; exact takeBuffer_encode h rest⟩

/-- An operand that was read goes on to the rest of a decoding. -/
@[simp] theorem decoded_ok_bind {α β : Type} (a : α) (k : α → Except DecodeError β) : (Except.ok a >>= k) = k a := rfl

/-! ### What a packet that decodes stands in -/

/-- `i` is well formed, of format `f`, and its encoding is what stands in `bs` before `rest`. -/
structure StandsIn (f : Format) (bs : List Byte) (i : Instr) (rest : List Byte) : Prop where
  format : i.format = f
  wellFormed : i.wellFormed = true
  bytes : encode i ++ rest = bs

theorem decodeCmd_ok {bs rest : List Byte} {i : Instr} (h : decodeCmd bs = .ok (i, rest)) : StandsIn .cmd bs i rest := by
  unfold decodeCmd at h
  split at h
  · cases h
  · split at h <;> simp only [decoded_bind_eq_ok_iff, takeByte_eq_ok_iff, takeBit_eq_ok_iff, takeAddr_eq_ok_iff,
      takeWord_eq_ok_iff, takeCount_eq_ok_iff, takeBuffer_eq_ok_iff, Prod.exists, Except.ok.injEq, Prod.mk.injEq,
      reduceCtorEq] at h
    -- 0x00 and 0x16 to 0x19: no operand
    case h_1 | h_17 | h_18 | h_19 | h_20 => obtain ⟨rfl, rfl⟩ := h; exact ⟨rfl, rfl, rfl⟩
    -- 0x0C, 0x11, 0x13: a word or a byte
    case h_10 | h_12 | h_14 => obtain ⟨_, _, rfl, rfl, rfl⟩ := h; exact ⟨rfl, rfl, rfl⟩
    -- 0x01, 0x12, 0x14: two bits, bytes or words
    case h_2 | h_13 | h_15 => obtain ⟨_, _, rfl, _, _, rfl, rfl, rfl⟩ := h; exact ⟨rfl, rfl, rfl⟩
    -- 0x10, 0x15: a bit or a byte, an address, a word
    case h_11 | h_16 => obtain ⟨_, _, rfl, _, _, rfl, _, _, rfl, rfl, rfl⟩ := h; exact ⟨rfl, rfl, rfl⟩
    -- 0x0A, 0x0B: a count
    case h_8 | h_9 => obtain ⟨_, _, ⟨rfl, hc⟩, rfl, rfl⟩ := h; exact ⟨rfl, hc, rfl⟩
    -- 0x02, 0x08, 0x09: a word, a count
    case h_3 | h_6 | h_7 => obtain ⟨_, _, rfl, _, _, ⟨rfl, hc⟩, rfl, rfl⟩ := h; exact ⟨rfl, hc, rfl⟩
    -- 0x03, 0x04: a buffer, a count, a bit
    case h_4 | h_5 =>
      obtain ⟨_, _, ⟨rfl, ht⟩, _, _, ⟨rfl, hc⟩, _, _, rfl, rfl, rfl⟩ := h
      exact ⟨rfl, Bool.and_eq_true_iff.mpr ⟨hc, ht⟩, by simp [encode]⟩

theorem decodeReq_ok {bs rest : List Byte} {i : Instr} (h : decodeReq bs = .ok (i, rest)) : StandsIn .req bs i rest := by
  unfold decodeReq at h
  split at h
  · cases h
  · split at h <;> cases h <;> exact ⟨rfl, rfl, rfl⟩

theorem decodeAckByte_ok {bs rest : List Byte} {i : Instr} (h : decodeAckByte bs = .ok (i, rest)) :
    StandsIn .ack bs i rest := by
  unfold decodeAckByte at h
  split at h
  · cases h
  · split at h <;> cases h <;> exact ⟨rfl, rfl, rfl⟩

theorem decodeDataW_ok {bs rest : List Byte} {i : Instr} (h : decodeDataW bs = .ok (i, rest)) :
    StandsIn .dataW bs i rest := by
  simp only [decodeDataW, decoded_bind_eq_ok_iff, takeWord_eq_ok_iff, takeBit_eq_ok_iff, Prod.exists] at h
  obtain ⟨data, _, rfl, par, _, rfl, h⟩ := h
  split at h
  · rename_i hpar
    cases h; subst hpar; exact ⟨rfl, rfl, rfl⟩
  · cases h

theorem decodeDataR_ok {bs rest : List Byte} {i : Instr} (h : decodeDataR bs = .ok (i, rest)) :
    StandsIn .dataR bs i rest := by
  simp only [decodeDataR, decoded_bind_eq_ok_iff, takeWord_eq_ok_iff, takeBit_eq_ok_iff, Prod.exists] at h
  obtain ⟨data, _, rfl, par, _, rfl, ⟨⟩⟩ := h
  exact ⟨rfl, rfl, rfl⟩

theorem decodeTmsseq_ok {bs rest : List Byte} {i : Instr} (h : decodeTmsseq bs = .ok (i, rest)) :
    StandsIn .tmsseq bs i rest := by
  simp only [decodeTmsseq, decoded_bind_eq_ok_iff, takeWord_eq_ok_iff, takeCount_eq_ok_iff, Prod.exists] at h
  obtain ⟨bits, _, rfl, count, _, ⟨rfl, -⟩, h⟩ := h
  split at h
  · rename_i hn
    cases h; exact ⟨rfl, decide_eq_true hn, rfl⟩
  · cases h

theorem decodeShift_ok {bs rest : List Byte} {i : Instr} (h : decodeShift bs = .ok (i, rest)) :
    StandsIn .shift bs i rest := by
  simp only [decodeShift, decoded_bind_eq_ok_iff, takeBuffer_eq_ok_iff, takeCount_eq_ok_iff, takeBit_eq_ok_iff,
    Prod.exists] at h
  obtain ⟨tdi, _, ⟨rfl, ht⟩, count, _, ⟨rfl, hc⟩, finalTms, _, rfl, h⟩ := h
  split at h
  · rename_i hn
    cases h; exact ⟨rfl, by simp [Instr.wellFormed, ht, hc, hn], by simp [encode]⟩
  · cases h

/-- In every format the decoder reads nothing but what was encoded. -/
theorem decode_ok {f : Format} {bs rest : List Byte} {i : Instr} (h : decode f bs = .ok (i, rest)) :
    StandsIn f bs i rest := by
  cases f with
  | cmd => exact decodeCmd_ok h
  | req => exact decodeReq_ok h
  | ack => exact decodeAckByte_ok h
  | dataW => exact decodeDataW_ok h
  | dataR => exact decodeDataR_ok h
  | turn => cases h; exact ⟨rfl, rfl, rfl⟩
  | tmsseq => exact decodeTmsseq_ok h
  | shift => exact decodeShift_ok h

/-- The decoder reads an encoding back, whatever follows it. -/
theorem decode_encode {i : Instr} (h : i.wellFormed = true) (rest : List Byte) :
    decode i.format (encode i ++ rest) = .ok (i, rest) := by
  cases i with
  | jtagNext | setDelay | lowAccess | dpRead | dpWrite | dpAbort | apRead | apWrite =>
    simp [Instr.format, decode, decodeCmd, encode, takeByte_cons, takeBit_encode, takeAddr_encode, takeWord_encode]
  | shiftTmsSequence _ count | seqOut _ count | seqOutWithParity _ count | seqIn count | seqInWithParity count =>
    have hc : count < 2 ^ 32 := of_decide_eq_true h
    simp [Instr.format, decode, decodeCmd, encode, takeWord_encode, takeCount_encode hc]
  | shiftData tdi count _ | shiftDataDiscardOutput tdi count _ =>
    simp only [Instr.wellFormed, countFits, bufferFits, Bool.and_eq_true, decide_eq_true_eq] at h
    obtain ⟨hc, hb⟩ := h
    simp [Instr.format, decode, decodeCmd, encode, takeBit_encode, takeCount_encode hc, takeBuffer_encode hb]
  | dataW => simp [Instr.format, decode, decodeDataW, encode, takeBit_encode, takeWord_encode]
  | dataR => simp [Instr.format, decode, decodeDataR, encode, takeBit_encode, takeWord_encode]
  | tmsseq _ count =>
    have hn : count ≤ Config.tmsSeqMax := of_decide_eq_true h
    have hc : count < 2 ^ 32 := Nat.lt_of_le_of_lt hn (by decide)
    simp [Instr.format, decode, decodeTmsseq, encode, takeWord_encode, takeCount_encode hc, hn]
  | shift tdi count _ =>
    simp only [Instr.wellFormed, countFits, bufferFits, Bool.and_eq_true, decide_eq_true_eq] at h
    obtain ⟨⟨⟨hc, hb⟩, h1⟩, hn⟩ := h
    simp [Instr.format, decode, decodeShift, encode, takeBit_encode, takeCount_encode hc, takeBuffer_encode hb, h1, hn]
  | _ => rfl

/-- Settles O1: each operand is read back in its place. -/
theorem decodeOfEncode : Obligations.DecodeOfEncode := fun _ rest h => decode_encode h rest

/-- Settles O2: in each format the operands read are the bytes they stood in. -/
theorem decodedIsEncoded : Obligations.DecodedIsEncoded := fun _ _ _ _ h =>
  let ⟨hf, hw, hb⟩ := decode_ok h
  ⟨hf, hw, hb⟩

/-- Settles O3: ten closed packets. -/
theorem tableWordsDecode : Obligations.TableWordsDecode := by
  unfold Obligations.TableWordsDecode
  exact ⟨rfl, rfl, rfl, rfl, rfl, rfl, rfl, rfl, rfl, rfl⟩

end Sys2Proof

namespace Sys2Proof.Machine
open Sys2Proof.Safety

/-! ### The port -/

/-- The packet's bytes begin with an instruction: that is what a step runs (R70). -/
theorem step_of_decode_ok {s : State} {pk : Packet} {rest : List Packet} {i : Instr} {tail : List Byte}
    (hp : s.port = pk :: rest) (hd : decode pk.format pk.bytes = .ok (i, tail)) :
    step s = exec i { s with port := rest } := by
  simp only [step, fetch, hp, hd]

/-- The packet's bytes begin with no instruction: it is rejected (R73). -/
theorem step_of_decode_error {s : State} {pk : Packet} {rest : List Packet} {e : DecodeError}
    (hp : s.port = pk :: rest) (hd : decode pk.format pk.bytes = .error e) :
    step s = rejectPacket e { s with port := rest } := by
  simp only [step, fetch, hp, hd]

/-- With nothing presented an idle block stays as it is (R201). -/
theorem step_idle_of_no_packet {s : State} (hp : s.port = []) (hi : s.phase = .idle) : step s = .next s := by
  simp only [step, fetch, hp, fetchPhase, hi]

/-- Settles O7: the first packet decides, and without one the phase. -/
theorem stepRunsDecoded : Obligations.StepRunsDecoded :=
  ⟨fun _ _ _ _ _ _ hp hd => step_of_decode_ok hp hd, fun _ hp hi => step_idle_of_no_packet hp hi⟩

theorem decodeCmd_unknown {op : Byte} (tail : List Byte)
    (h : op.toNat ∉ [0x00, 0x01, 0x02, 0x03, 0x04, 0x08, 0x09, 0x0A, 0x0B, 0x0C, 0x10, 0x11, 0x12, 0x13, 0x14, 0x15,
      0x16, 0x17, 0x18, 0x19]) : decode .cmd (op :: tail) = .error .badCommand := by
  simp only [decode, decodeCmd]
  split
  case h_21 => rfl
  all_goals exact absurd (by decide) h

/-- Settles O8: a code of no arm of the command decoder is the one error that has an outcome. -/
theorem unknownCodeRefused : Obligations.UnknownCodeRefused := by
  intro s op tail rest hop hp hi
  rw [step_of_decode_error hp (decodeCmd_unknown tail hop)]
  exact runCommand_idle (s := { s with port := rest }) _ hi

/-! ### The JTAG wire formats -/

/-- Settles O30: what the two loops do, for the levels of the string. -/
theorem jtagWireFormatsClock : Obligations.JtagWireFormatsClock := by
  refine ⟨fun bits count s => ?_, fun tdi count finalTms s hc => ?_⟩
  · show Host.Outcome.next (clockTms (bitsOf bits count) s) = _
    rw [clockTms_eq, getLastD_bitsOf, isEmpty_bitsOf, map_true_bitsOf, bitsOf_length]
    simp only [decide_eq_true_eq]
  · show Host.Outcome.next (clockData finalTms (shiftLevels tdi count s.outcomes.length) s).2 = _
    rw [clockData_eq finalTms _ s (shiftLevels_ne_nil tdi _ hc), shiftLevels_getLastD tdi _ _ hc, shiftLevels_length]

/-! ### The line of a consistent state -/

/-- SWDIO is driven or floated as the direction asked for says, whether or not the line had to be turned (R205 (b)). -/
theorem swdioOe_turned {s : State} (hs : Consistent s) (dir : Dir) :
    (if dir = s.swdDir then s.swdioOe else decide (dir = .drive)) = decide (dir = .drive) := by
  split
  · rename_i h; rw [hs.oeFollowsDir, h]
  · rfl

theorem swdioOe_driven {s : State} (hs : Consistent s) : (if .drive = s.swdDir then s.swdioOe else true) = true :=
  swdioOe_turned hs .drive

theorem swdioOe_floated {s : State} (hs : Consistent s) : (if .float = s.swdDir then s.swdioOe else false) = false :=
  swdioOe_turned hs .float

/-- Settles O41: TURN is the turnaround to the other direction, and so is the empty sequence in that direction. -/
theorem turnSpendsOneCycle : Obligations.TurnSpendsOneCycle := by
  intro s hs
  have he : exec .turn s = .next (turnaround (otherDir s.swdDir) s) := congrArg _ (turnLine_eq s)
  refine ⟨fun hd => ?_, fun hd => ?_⟩ <;> rw [he, hd] <;>
    exact ⟨rfl, by simp [otherDir, turnaround_eq, hd, turnEvents, hs.swclkLow]⟩

/-! ### The packet phases of a consistent state -/

/-- Settles O42: the encoder gives the table, whose sixteen bytes have the three bits. -/
theorem requestBytesMatchTable : Obligations.RequestBytesMatchTable := by
  have hbits : ∀ (apndp rnw : Bool) (a : BitVec 2),
      (requestByte apndp rnw a).getLsbD 5 = (apndp ^^ rnw ^^ a.getLsbD 0 ^^ a.getLsbD 1)
      ∧ (requestByte apndp rnw a).getLsbD 6 = false ∧ (requestByte apndp rnw a).getLsbD 7 = true := by decide
  exact fun apndp rnw a => ⟨makeRequest_params apndp rnw a, hbits apndp rnw a⟩

/-- What a request does in a consistent state (R126 step 1, R141 row S_REQ). -/
theorem requestStep_eq {s : State} (hs : Consistent s) (apndp rnw : Bool) (a : BitVec 2) :
    requestStep apndp rnw a s =
      { s with
        req := requestByte apndp rnw a, swdDir := .drive, swdioOe := true, swdioOut := true
        trace := s.trace ++ turnEvents (delayEvents s.delayCount) s.swdDir .drive
          ++ outCycles (delayEvents s.delayCount) (bitsOf (requestByte apndp rnw a) 8)
        tries := if s.phase = .req then s.tries + 1 else s.tries
        phase := if s.phase = .req then .ack else s.phase } := by
  rw [requestStep, sendRequest_eq, swdioOe_driven hs, requestEvents, ← List.append_assoc]
  split <;> simp [leaveReq, hs.swclkLow, *]

/-- Settles O43: the sixteen requests are the values of the three fields of a request. -/
theorem requestsGoOut : Obligations.RequestsGoOut := by
  intro x hx s hs
  simp only [List.mem_cons, List.not_mem_nil, or_false] at hx
  rcases hx with rfl | rfl | rfl | rfl | rfl | rfl | rfl | rfl | rfl | rfl | rfl | rfl | rfl | rfl | rfl | rfl <;>
    exact congrArg _ (requestStep_eq hs _ _ _)

/-- What an acknowledge presented by the target does in a consistent state (R126 step 2). -/
theorem receiveAck_presented {s : State} (hs : Consistent s) (v : BitVec 3) :
    receiveAck (presentSwdio (bitsOf v 3) s) =
      { s with
        ack := v, swdDir := .float, swdioOe := false
        trace := s.trace ++ turnEvents (delayEvents s.delayCount) s.swdDir .float
          ++ inCycles (delayEvents s.delayCount) (bitsOf v 3) } := by
  have hd := InputPin.draw_queued Config.freeSwdioLevel (bitsOf v 3) s.swdioIn.queue s.swdioIn.drawn
  rw [bitsOf_length] at hd
  simp only [receiveAck_eq, presentSwdio, hd, ack_presented, swdioOe_floated hs, hs.swclkLow]

/-- What row S_ACK does, by the acknowledge received (R141). -/
theorem leaveAck_eq (s : State) :
    leaveAck Config.params s =
      { s with
        phase :=
          if s.ack = 1 then (if reqRnw s.req then .rdata else .wdata)
          else if s.ack = 2 ∧ s.tries < Config.params.retryBound then .req else .done
        fault := if s.ack = 4 then true else s.fault } := by
  unfold leaveAck
  rw [decodeAck_params]
  by_cases h1 : s.ack = 1
  · simp [h1]
  by_cases h2 : s.ack = 2
  · simp [h2]
  by_cases h4 : s.ack = 4
  · simp [h4]
  · simp only [h1, h2, h4, if_false, false_and]

/-- What an acknowledge does in a consistent state (R126 step 2, R141 row S_ACK). -/
theorem ackStep_eq {s : State} (hs : Consistent s) (v : BitVec 3) :
    ackStep v s =
      { s with
        ack := v, swdDir := .float, swdioOe := false
        trace := s.trace ++ turnEvents (delayEvents s.delayCount) s.swdDir .float
          ++ inCycles (delayEvents s.delayCount) (bitsOf v 3)
        phase :=
          if s.phase = .ack then
            (if v = 1 then (if s.req.getLsbD 2 then .rdata else .wdata)
            else if v = 2 ∧ s.tries < Config.params.retryBound then .req else .done)
          else s.phase
        fault := if s.phase = .ack ∧ v = 4 then true else s.fault } := by
  rw [ackStep, receiveAck_presented hs, leaveAck_eq]
  by_cases hp : s.phase = .ack
  · simp [hp, reqRnw]
  · simp only [hp, if_false, false_and]

/-- Settles O44: the eight acknowledges are the values of three bits. -/
theorem acksAreReceived : Obligations.AcksAreReceived := by
  intro x hx s hs
  simp only [List.mem_cons, List.not_mem_nil, or_false] at hx
  rcases hx with rfl | rfl | rfl | rfl | rfl | rfl | rfl | rfl <;> exact congrArg _ (ackStep_eq hs _)

/-- What a write data phase does in a consistent state (R124, R141 row S_WDATA). -/
theorem dataWStep_eq {s : State} (hs : Consistent s) (v : Word) :
    dataWStep v s =
      { s with
        wdata := v, swdDir := .drive, swdioOe := true, swdioOut := parity v
        trace := s.trace ++ turnEvents (delayEvents s.delayCount) s.swdDir .drive
          ++ outCycles (delayEvents s.delayCount) (bitsOf v 32 ++ [parity v])
        phase := if s.phase = .wdata then .done else s.phase } := by
  rw [dataWStep, writeDataPhase_eq, swdioOe_driven hs]
  split <;> simp [leaveData, hs.swclkLow, *]

/-- What a read data phase presented by the target does in a consistent state (R125). -/
theorem readDataPhase_presented {s : State} (hs : Consistent s) (v : Word) (par : Bool) :
    readDataPhase (presentSwdio (bitsOf v 32 ++ [par]) s) =
      { s with
        rdata := v, pok := decide (par = parity v), swdDir := .drive, swdioOe := true
        trace := s.trace ++ turnEvents (delayEvents s.delayCount) s.swdDir .float
          ++ inCycles (delayEvents s.delayCount) (bitsOf v 32 ++ [par])
          ++ turnEvents (delayEvents s.delayCount) .float .drive } := by
  have hd := InputPin.draw_queued Config.freeSwdioLevel (bitsOf v 32) (par :: s.swdioIn.queue) s.swdioIn.drawn
  rw [bitsOf_length] at hd
  have hq : bitsOf v 32 ++ [par] ++ s.swdioIn.queue = bitsOf v 32 ++ par :: s.swdioIn.queue := List.append_cons .. |>.symm
  simp only [readDataPhase_eq, presentSwdio, hq, hd, InputPin.level, InputPin.next, wordOfBits_bitsOf, hs.swclkLow,
    beq_eq_decide]

/-- What that data phase does as a step: in S_RDATA the row S_RDATA too (R141). -/
theorem dataRStep_eq {s : State} (hs : Consistent s) (v : Word) (par : Bool) :
    dataRStep v par s =
      { s with
        rdata := v, pok := decide (par = parity v), swdDir := .drive, swdioOe := true
        trace := s.trace ++ turnEvents (delayEvents s.delayCount) s.swdDir .float
          ++ inCycles (delayEvents s.delayCount) (bitsOf v 32 ++ [par])
          ++ turnEvents (delayEvents s.delayCount) .float .drive
        phase := if s.phase = .rdata then .done else s.phase } := by
  rw [dataRStep, readDataPhase_presented hs]
  split <;> simp [leaveData, *]

/-- Settles O45: the row of each data phase, in a consistent state. -/
theorem dataPhasesMoveWords : Obligations.DataPhasesMoveWords := fun _ hs =>
  ⟨fun v => congrArg _ (dataWStep_eq hs v), fun v par => congrArg _ (dataRStep_eq hs v par)⟩

/-! ### An access that ends without a data phase -/

/-- The end of an access whose last acknowledge is not OK (R143, R144, R178). -/
theorem finishAccess_noData (apndp rnw : Bool) (a : BitVec 2) (v : Word) {ack : BitVec 3} {s : State} (h1 : ack ≠ 1)
    (hs : s.ack = ack) :
    finishAccess Config.params apndp rnw a v (decodeAck Config.params ack) s =
      (noDataOutcome ack,
        { s with
          phase := .idle
          fault := if ack = 4 then true else s.fault
          selValid := if apndp = false ∧ rnw = false ∧ a = 2 then false else s.selValid }) := by
  subst hs
  rw [decodeAck_params, noDataOutcome, if_neg h1]
  by_cases h2 : s.ack = 2
  · simp [h2, finishAccess, untrackSelect_eq]
  by_cases h4 : s.ack = 4
  · simp [h4, finishAccess, untrackSelect_eq]
  · simp only [if_neg h2, if_neg h4, finishAccess, untrackSelect_eq]

/-- The loop of an access answered WAIT `n` times and then `ack`, which ends it: not OK, and WAIT only at the bound. -/
theorem attempts_noData (apndp rnw : Bool) (a : BitVec 2) (v : Word) {n more : Nat} {ack : BitVec 3} {q : List Bool}
    {s : State} (h1 : ack ≠ 1) (hn : n ≤ more) (h2 : ack = 2 → n = more)
    (hq : s.swdioIn.queue = waitAnswers n ++ bitsOf ack 3 ++ q) :
    attempts Config.params apndp rnw a v more s = (decodeAck Config.params ack,
      { s with
        req := requestByte apndp rnw a, ack := ack, swdDir := .float, swdioOe := false, swdioOut := true, swclk := false
        phase := .req, tries := s.tries + n + 1, swdioIn := ⟨q, s.swdioIn.drawn⟩
        trace := s.trace ++ accessEvents s (requestByte apndp rnw a) n ack }) := by
  obtain ⟨k, rfl⟩ := Nat.exists_eq_add_of_le hn
  have hend : decodeAck Config.params ack ≠ .wait ∨ k = 0 := by
    by_cases hw : ack = 2
    · exact .inr (Nat.add_eq_left.mp (h2 hw).symm)
    · refine .inl ?_
      rw [decodeAck_params, if_neg h1, if_neg hw]
      split <;> simp
  cases n with
  | zero =>
    have hq0 : s.swdioIn.queue = bitsOf ack 3 ++ q := hq
    rw [Nat.zero_add, attempts_last (attempt_noData apndp rnw a v ack q s h1 hq0) hend]
    simp [accessEvents, waitEvents, waitDir]
  | succ n =>
    rw [attempts_waits apndp rnw a v n k (bitsOf ack 3 ++ q) s (by rw [hq, List.append_assoc]),
      attempts_last (attempt_noData apndp rnw a v ack q _ h1 rfl) hend]
    simp [accessEvents, waitDir]

/-- An access answered WAIT `n` times and then `ack`, which ends it without a data phase (R141, section 2 of
60_exceptions.md). -/
theorem lowAccess_noData (rnw : Bool) {addr : BitVec 9} (value : Word) {n : Nat} {ack : BitVec 3} {q : List Bool}
    {s : State} (hs : Consistent s) (hp : s.phase = .idle) (ha : addr.extractLsb' 0 2 = 0)
    (hn : n < Config.params.retryBound) (h1 : ack ≠ 1) (h2 : ack = 2 → n + 1 = Config.params.retryBound)
    (hq : s.swdioIn.queue = waitAnswers n ++ bitsOf ack 3 ++ q) :
    lowAccess Config.params rnw addr value s
      = (noDataOutcome ack, afterNoData (addr.getLsbD 8) rnw (addr.extractLsb' 2 2) n ack s) := by
  have hq3 : s.swdioIn.queue.drop (3 * n + 3) = q := by
    rw [drop_waitAnswers (by rw [hq, List.append_assoc]), drop_ack]
  have hl := attempts_noData (s := { s with tries := 0 }) (addrApndp addr) rnw (addrSlot addr) value h1
    (Nat.le_of_lt_succ hn) (fun h => Nat.succ.inj (h2 h)) hq
  simp only [lowAccess, (addrAligned_iff addr).mpr ha, if_true, hl, finishAccess_noData _ _ _ _ h1]
  simp [afterNoData, accessEvents, addrApndp, addrSlot, hq3, hs.swclkLow, hp]

/-- Settles O50: the five other values end the access without a data phase, and none is FAULT. -/
theorem lowAccessInvalidAck : Obligations.LowAccessInvalidAck := by
  intro rnw addr value n ack rest s hs hp ha hn hack hq
  obtain ⟨h1, h2, h4⟩ : ack ≠ 1 ∧ ack ≠ 2 ∧ ack ≠ 4 := by clear hq; revert ack; decide
  show runCommand (lowAccess Config.params rnw addr value) s = _
  rw [runCommand_idle _ hp, lowAccess_noData rnw value hs hp ha hn h1 (absurd · h2) hq, noDataOutcome, if_neg h2,
    if_neg h4]

end Sys2Proof.Machine
end

section
/-! PROOFS. The family 40_jtag_tap.md: what each JTAG command does on the pins, how many cycles it spends, and that
no event but the delays depends on `delay_count`. -/

namespace Sys2Proof.Machine
open Sys2Proof.Safety

/-! ### What each command does -/

/-- A command at an idle block runs its body and hands over the outcome (R49, R206). -/
theorem exec_command_idle {i : Instr} {s : State} (hi : i.format = .cmd) (hp : s.phase = .idle) :
    exec i s = .next (endCommand (commandBody i s)) := (exec_command hi s).trans (runCommand_idle _ hp)

/-- Settles O23: the body is one cycle. -/
theorem jtagNextCycle : Obligations.JtagNextCycle := by
  intro tms tdi s hp
  rw [exec_command_idle rfl hp]
  simp only [commandBody, jtagNext_eq, endCommand]

theorem shiftTmsSequence_eq {bits : Word} {count : Nat} (s : State) (h : count ≤ 32) :
    shiftTmsSequence bits count s = (.ok .nothing, clockTms (bitsOf bits count) s) :=
  if_neg (Nat.not_lt.mpr h)

/-- Settles O24: the loop over the low bits of the operand. -/
theorem shiftTmsSequenceClocks : Obligations.ShiftTmsSequenceClocks := by
  intro bits count s hp hc
  rw [exec_command_idle rfl hp, commandBody, shiftTmsSequence_eq s hc, clockTms_eq, getLastD_bitsOf, isEmpty_bitsOf,
    map_true_bitsOf, bitsOf_length]
  simp only [endCommand, decide_eq_true_eq]

/-- What a data shift of a count in range clocks and leaves (R82). -/
theorem clockData_shiftLevels_eq (finalTms : Bool) (tdi : List Byte) {count : Nat} (s : State) (h : 1 ≤ count) :
    clockData finalTms (shiftLevels tdi count s.outcomes.length) s =
      ((s.tdo.draw Config.freeTdoLevel count).1,
        { s with
          tms := finalTms, tdi := shiftLevel tdi s.outcomes.length (count - 1), tck := false
          tapShadow := (shiftTms finalTms count).foldl tapNext s.tapShadow
          tdo := (s.tdo.draw Config.freeTdoLevel count).2
          trace := s.trace ++ jtagCycles (delayEvents s.delayCount) (shiftTms finalTms count)
            (shiftLevels tdi count s.outcomes.length) (s.tdo.draw Config.freeTdoLevel count).1 }) := by
  rw [clockData_eq finalTms _ s (shiftLevels_ne_nil tdi _ h), shiftLevels_getLastD tdi _ _ h, shiftLevels_length]

theorem shiftData_eq (tdi : List Byte) {count : Nat} (finalTms : Bool) (s : State) (h1 : 1 ≤ count)
    (hm : count ≤ Config.params.jtagShiftMax) :
    shiftData Config.params tdi count finalTms s =
      (.ok (.buffer (packBits (clockData finalTms (shiftLevels tdi count s.outcomes.length) s).1)),
        (clockData finalTms (shiftLevels tdi count s.outcomes.length) s).2) :=
  if_neg (by omega)

theorem shiftDataDiscardOutput_eq (tdi : List Byte) {count : Nat} (finalTms : Bool) (s : State) (h1 : 1 ≤ count)
    (hm : count ≤ Config.params.jtagShiftMax) :
    shiftDataDiscardOutput Config.params tdi count finalTms s =
      (.ok .nothing, (clockData finalTms (shiftLevels tdi count s.outcomes.length) s).2) :=
  if_neg (by omega)

@[simp] theorem packBits_nil : packBits [] = [] := by simp [packBits, packBytes]

theorem packBits_length (bs : List Bool) : (packBits bs).length = (bs.length + 7) / 8 := packBytes_length _ bs

/-- Bit `i` of the packed bytes is the `i`-th bit, and 0 past the last (R43). -/
theorem bufferBit_packBits {bs : List Bool} {i : Nat} (h : i < 8 * (packBits bs).length) :
    bufferBit (packBits bs) i = bs.getD i false :=
  bufferBit_packBytes _ bs i (packBits_length bs ▸ h)

/-- Settles O25: the bytes are the packed levels drawn from TDO. -/
theorem shiftDataClocks : Obligations.ShiftDataClocks := by
  intro tdi count finalTms s hp h1 hm
  refine ⟨fun i hi => if_pos hi, packBits (s.tdo.draw Config.freeTdoLevel count).1, ?_,
    fun k hk => bufferBit_packBits hk, ?_⟩
  · rw [packBits_length, InputPin.draw_length]
  · rw [exec_command_idle rfl hp, commandBody, shiftData_eq tdi finalTms s h1 hm,
      clockData_shiftLevels_eq finalTms tdi s h1]
    rfl

/-- Settles O26: the cycles of `shift_data`, their levels dropped. -/
theorem shiftDataDiscardOutputClocks : Obligations.ShiftDataDiscardOutputClocks := by
  intro tdi count finalTms s hp h1 hm
  rw [exec_command_idle rfl hp, commandBody, shiftDataDiscardOutput_eq tdi finalTms s h1 hm,
    clockData_shiftLevels_eq finalTms tdi s h1]
  rfl

/-- Settles O27: each command tests its count before anything else. -/
theorem jtagBadCountRefused : Obligations.JtagBadCountRefused := fun _ hp =>
  ⟨fun _ _ hc => exec_of_body_refused rfl hp (if_pos hc), fun _ _ _ hc =>
    ⟨exec_of_body_refused rfl hp (if_pos hc), exec_of_body_refused rfl hp (if_pos hc)⟩⟩

/-- The soft reset is six cycles with TMS high (R84, D35). -/
theorem bitsOf_softReset : bitsOf Config.params.softReset Config.params.softResetCount = List.replicate 6 true := by
  show bitsOf (0x3F : Word) 6 = _
  decide

/-- Six ones lead to Test-Logic-Reset from every state of the TAP table (R88). -/
theorem tapNext_six_ones (x : TapState) : (List.replicate 6 true).foldl tapNext x = .testLogicReset := by
  cases x <;> rfl

/-- Settles O28: the pulse, then six ones. -/
theorem jtagResetReachesTestLogicReset : Obligations.JtagResetReachesTestLogicReset := by
  intro s hp
  rw [exec_command_idle rfl hp, commandBody, jtagReset, bitsOf_softReset, clockTms_eq, tapNext_six_ones, pulseTrst_eq]
  rfl

/-! ### One buffer for input and output -/

theorem clockData_length (finalTms : Bool) (bs : List Bool) (s : State) :
    (clockData finalTms bs s).1.length = bs.length := by
  induction bs generalizing s with
  | nil => rfl
  | cons b bs ih => simp [clockData, ih]

theorem clockDataInPlace_zero (finalTms : Bool) (tdi : List Byte) (s : State) :
    clockDataInPlace finalTms 0 tdi s = (tdi, s) := by
  cases tdi <;> rfl

@[simp] theorem bufferBits_zero (buf : List Byte) : bufferBits buf 0 = [] := rfl

theorem bufferBit_cons_of_lt (b : Byte) (rest : List Byte) {i : Nat} (h : i < 8) :
    bufferBit (b :: rest) i = b.getLsbD i := by
  rw [bufferBit, Nat.div_eq_of_lt h, Nat.mod_eq_of_lt h, List.getD_cons_zero]

theorem bufferBit_cons_add (b : Byte) (rest : List Byte) (i : Nat) :
    bufferBit (b :: rest) (8 + i) = bufferBit rest i := by
  rw [bufferBit, Nat.add_div_left i (by decide), Nat.add_mod_left, List.getD_cons_succ, bufferBit]

/-- The bits of a buffer of at least eight are those of its first byte and then those of the rest (R43). -/
theorem bufferBits_cons_add (b : Byte) (rest : List Byte) (n : Nat) :
    bufferBits (b :: rest) (8 + n) = bitsOf b 8 ++ bufferBits rest n := by
  rw [bufferBits, List.range_add, List.map_append, List.map_map]
  exact congrArg₂ _ (List.map_congr_left fun i hi => bufferBit_cons_of_lt b rest (List.mem_range.mp hi))
    (List.map_congr_left fun i _ => bufferBit_cons_add b rest i)

/-- At most eight bits of a buffer are bits of its first byte (R43). -/
theorem bufferBits_cons_of_le (b : Byte) (rest : List Byte) {n : Nat} (h : n ≤ 8) :
    bufferBits (b :: rest) n = bitsOf b n :=
  List.map_congr_left fun _ hi => bufferBit_cons_of_lt b rest (Nat.lt_of_lt_of_le (List.mem_range.mp hi) h)

/-- Eight bits in front make one byte in front (R43). -/
theorem packBits_append {xs : List Bool} (ys : List Bool) (h : xs.length = 8) :
    packBits (xs ++ ys) = wordOfBits 8 xs :: packBits ys := by
  have hk : ((xs ++ ys).length + 7) / 8 = (ys.length + 7) / 8 + 1 := by rw [List.length_append]; omega
  rw [packBits, hk, packBytes, List.take_left' h, List.drop_left' h, packBits]

/-- At most eight bits, and at least one, make one byte (R43). -/
theorem packBits_single {xs : List Bool} (h1 : xs ≠ []) (h8 : xs.length ≤ 8) : packBits xs = [wordOfBits 8 xs] := by
  have hk : (xs.length + 7) / 8 = 0 + 1 := by have := List.length_pos_of_ne_nil h1; omega
  rw [packBits, hk, packBytes, List.take_of_length_le h8, packBytes]

/-- The shift with one buffer stores the packed result of the shift with two in front of the bytes it leaves (R85). -/
theorem clockDataInPlace_eq (finalTms : Bool) {count : Nat} {tdi : List Byte} (s : State) (h : count ≤ 8 * tdi.length) :
    clockDataInPlace finalTms count tdi s =
      (packBits (clockData finalTms (bufferBits tdi count) s).1 ++ tdi.drop ((count + 7) / 8),
        (clockData finalTms (bufferBits tdi count) s).2) := by
  induction tdi generalizing count s with
  | nil =>
    obtain rfl : count = 0 := by simpa using h
    simp [clockDataInPlace_zero, clockData]
  | cons b rest ih =>
    rw [List.length_cons] at h
    rcases Nat.eq_zero_or_pos count with rfl | h0
    · simp [clockDataInPlace_zero, clockData]
    rw [clockDataInPlace, if_neg (Nat.ne_of_gt h0)]
    rcases Nat.lt_or_ge 8 count with h8 | h8
    · obtain ⟨n, rfl⟩ : ∃ n, count = 8 + (n + 1) := ⟨count - 9, by omega⟩
      have hk : (8 + (n + 1) + 7) / 8 = (n + 1 + 7) / 8 + 1 := by omega
      have hl : (clockData false (bitsOf b 8) s).1.length = 8 := by rw [clockData_length, bitsOf_length]
      rw [Nat.min_eq_right (Nat.le_of_lt h8), Nat.add_sub_cancel_left, bufferBits_cons_add,
        clockData_append finalTms _ s (bufferBits_ne_nil rest (Nat.le_add_left 1 n)), packBits_append _ hl, hk,
        decide_eq_false (Nat.not_le.mpr h8)]
      simp only [Bool.false_and, ih _ (show n + 1 ≤ 8 * rest.length by omega), List.cons_append, List.drop_succ_cons]
    · have hk : (count + 7) / 8 = 0 + 1 := by omega
      have hl : (clockData finalTms (bitsOf b count) s).1.length = count := by rw [clockData_length, bitsOf_length]
      rw [Nat.min_eq_left h8, Nat.sub_eq_zero_of_le h8, bufferBits_cons_of_le b rest h8, hk, List.drop_succ_cons,
        packBits_single (List.ne_nil_of_length_pos (by omega)) (by omega)]
      simp [clockDataInPlace_zero, h8]

theorem bufferBit_append_of_lt {xs : List Byte} (ys : List Byte) {i : Nat} (h : i < 8 * xs.length) :
    bufferBit (xs ++ ys) i = bufferBit xs i := by
  rw [bufferBit, List.getD_append _ _ _ _ (Nat.div_lt_of_lt_mul h), bufferBit]

/-- The bits that were packed are the first ones of a buffer that begins with their bytes (R43). -/
theorem bufferBits_packBits_append (bs : List Bool) (ys : List Byte) : bufferBits (packBits bs ++ ys) bs.length = bs := by
  refine List.ext_getElem (bufferBits_length _ _) fun i _ hi => ?_
  have hk : i < 8 * (packBits bs).length := by rw [packBits_length]; omega
  simp only [bufferBits, List.getElem_map, List.getElem_range]
  rw [bufferBit_append_of_lt ys hk, bufferBit_packBits hk, List.getD_eq_getElem _ _ hi]

/-- Settles O29: what is stored in place is the packed result. -/
theorem aliasedBufferAgrees : Obligations.AliasedBufferAgrees := by
  intro tdi count finalTms s h
  have hlen : (clockData finalTms (bufferBits tdi count) s).1.length = count := by
    rw [clockData_length, bufferBits_length]
  simp only [clockDataInPlace_eq finalTms s h, shiftLevels_of_fits _ h]
  refine ⟨trivial, ?_, trivial, fun h1 hm => ?_⟩
  · have hb := bufferBits_packBits_append (clockData finalTms (bufferBits tdi count) s).1 (tdi.drop ((count + 7) / 8))
    rwa [hlen] at hb
  · rw [shiftData_eq tdi finalTms s h1 hm, shiftLevels_of_fits _ h, List.take_left' (by rw [packBits_length, hlen])]

/-! ### Cycles -/

/-- One cycle has one rising edge of TCK (R80). -/
theorem jtagNext_tckCycles (tms tdi : Bool) (s : State) :
    tckCycles (jtagNext tms tdi s).2.trace = tckCycles s.trace + 1 := by
  have hd := delayEvents_count s.delayCount (e := .write .tck true) (by simp)
  rw [jtagNext_eq]
  simp [tckCycles, jtagCycle, hd]

theorem clockTms_tckCycles (bs : List Bool) (s : State) :
    tckCycles (clockTms bs s).trace = tckCycles s.trace + bs.length := by
  induction bs generalizing s with
  | nil => rfl
  | cons b bs ih => rw [clockTms, ih, jtagNext_tckCycles, List.length_cons, Nat.add_right_comm, Nat.add_assoc]

theorem clockData_tckCycles (finalTms : Bool) (bs : List Bool) (s : State) :
    tckCycles (clockData finalTms bs s).2.trace = tckCycles s.trace + bs.length := by
  induction bs generalizing s with
  | nil => rfl
  | cons b bs ih => simp only [clockData, ih, jtagNext_tckCycles, List.length_cons, Nat.add_right_comm, Nat.add_assoc]

/-- The pulse has no TCK cycle (R84). -/
theorem pulseTrst_tckCycles (p : Params) (s : State) : tckCycles (pulseTrst p s).trace = tckCycles s.trace := by
  rw [pulseTrst_eq]
  cases p.open5.hasTrst <;> simp [tckCycles]

/-- Settles O31: each command is a loop of cycles, whose length is its count. -/
theorem jtagCycleCounts : Obligations.JtagCycleCounts := by
  intro s t b c bits tdi n
  refine ⟨fun h => ?_, fun hn h => ?_, fun h1 hm h => ?_, fun h => ?_⟩
  · obtain ⟨-, rfl⟩ := exec_command_next rfl h
    exact jtagNext_tckCycles b c s
  · obtain ⟨-, rfl⟩ := exec_command_next rfl h
    rw [commandBody, shiftTmsSequence_eq s hn, endCommand_trace, clockTms_tckCycles, bitsOf_length]
  · rcases h with h | h <;> obtain ⟨-, rfl⟩ := exec_command_next rfl h
    · rw [commandBody, shiftData_eq tdi b s h1 hm, endCommand_trace, clockData_tckCycles, shiftLevels_length]
    · rw [commandBody, shiftDataDiscardOutput_eq tdi b s h1 hm, endCommand_trace, clockData_tckCycles, shiftLevels_length]
  · obtain ⟨-, rfl⟩ := exec_command_next rfl h
    rw [commandBody, jtagReset, endCommand_trace, clockTms_tckCycles, pulseTrst_tckCycles, bitsOf_softReset,
      List.length_replicate]

/-! ### Delays are unread -/

/-- The state with `delay_count` 0 and the delays erased from its trace: two states are `SameUpToDelay` when these agree. -/
def withoutDelays (s : State) : State := { s with delayCount := 0, trace := eraseDelays s.trace }

theorem sameUpToDelay_iff (s t : State) : SameUpToDelay s t ↔ withoutDelays s = withoutDelays t := Iff.rfl

/-- An operation commutes with erasing delays: it reads neither `delay_count` nor the trace but to add delays to it. -/
def DelayUnread {α : Type} (f : State → α × State) : Prop :=
  ∀ s, f (withoutDelays s) = ((f s).1, withoutDelays (f s).2)

theorem DelayUnread.pure {α : Type} (a : α) : DelayUnread fun s => (a, s) := fun _ => rfl

theorem DelayUnread.ite {α : Type} {f g : State → α × State} (c : State → Prop) [DecidablePred c]
    (hc : ∀ s, c (withoutDelays s) ↔ c s) (hf : DelayUnread f) (hg : DelayUnread g) :
    DelayUnread fun s => if c s then f s else g s := by
  intro s
  simp only [hc]
  split
  · exact hf s
  · exact hg s

/-- A sequence of two; the second may depend on what the first gave. -/
theorem DelayUnread.bind {α β : Type} {f : State → α × State} {g : α → State → β × State} (hf : DelayUnread f)
    (hg : ∀ a, DelayUnread (g a)) : DelayUnread fun s => g (f s).1 (f s).2 := by
  intro s
  simp only [hf s, hg (f s).1 (f s).2]

theorem DelayUnread.map {α β : Type} {f : State → α × State} (g : α → β) (hf : DelayUnread f) :
    DelayUnread fun s => (g (f s).1, (f s).2) :=
  hf.bind fun a => .pure (g a)

/-- The second access of a command, which is made only after an Ok. -/
theorem DelayUnread.andThenOk {f g : State → CmdOutcome × State} (hf : DelayUnread f) (hg : DelayUnread g) :
    DelayUnread fun s => andThenOk (f s) g :=
  hf.bind (g := fun o s => Machine.andThenOk (o, s) g) fun o => by
    cases o with
    | ok v => exact hg
    | _ => exact .pure _

@[simp] theorem withoutDelays_phase (s : State) : (withoutDelays s).phase = s.phase := rfl

@[simp] theorem withoutDelays_ack (s : State) : (withoutDelays s).ack = s.ack := rfl

theorem delayEvents_zero : delayEvents 0#32 = [] := rfl

/-! #### The JTAG loops -/

theorem clockTms_withoutDelays (bs : List Bool) (s : State) :
    clockTms bs (withoutDelays s) = withoutDelays (clockTms bs s) := by
  simp [clockTms_eq, withoutDelays, delayEvents_zero, eraseDelays_append, eraseDelays_jtagCycles]

theorem clockData_delayUnread (finalTms : Bool) (bs : List Bool) : DelayUnread (clockData finalTms bs) := by
  intro s
  by_cases h : bs = []
  · subst h; rfl
  · simp [clockData_eq _ _ _ h, withoutDelays, delayEvents_zero, eraseDelays_append, eraseDelays_jtagCycles]

/-- The levels of a data shift depend on the number of outcomes (log 31), which is the same. -/
theorem clockLevels_delayUnread (tdi : List Byte) (count : Nat) (finalTms : Bool) :
    DelayUnread fun s => clockData finalTms (shiftLevels tdi count s.outcomes.length) s :=
  fun s => clockData_delayUnread finalTms (shiftLevels tdi count s.outcomes.length) s

theorem jtagNext_delayUnread (tms tdi : Bool) : DelayUnread (jtagNext tms tdi) := by
  intro s
  simp [jtagNext_eq, withoutDelays, delayEvents_zero, eraseDelays_append, eraseDelays_jtagCycle]

theorem pulseTrst_withoutDelays (p : Params) (s : State) :
    pulseTrst p (withoutDelays s) = withoutDelays (pulseTrst p s) := by
  simp only [pulseTrst_eq, withoutDelays, eraseDelays_append]
  cases p.open5.hasTrst <;> rfl

theorem jtagReset_delayUnread (p : Params) : DelayUnread (jtagReset p) := fun s => by
  simp only [jtagReset, pulseTrst_withoutDelays, clockTms_withoutDelays]

theorem shiftTmsSequence_delayUnread (bits : Word) (count : Nat) : DelayUnread (shiftTmsSequence bits count) :=
  .ite (fun _ => _) (fun _ => Iff.rfl) (.pure _) fun s => congrArg _ (clockTms_withoutDelays _ s)

theorem shiftData_delayUnread (p : Params) (tdi : List Byte) (count : Nat) (finalTms : Bool) :
    DelayUnread (shiftData p tdi count finalTms) :=
  .ite (fun _ => _) (fun _ => Iff.rfl) (.pure _) <|
    .map (fun bs => CmdOutcome.ok (.buffer (packBits bs))) (clockLevels_delayUnread tdi count finalTms)

theorem shiftDataDiscardOutput_delayUnread (p : Params) (tdi : List Byte) (count : Nat) (finalTms : Bool) :
    DelayUnread (shiftDataDiscardOutput p tdi count finalTms) :=
  .ite (fun _ => _) (fun _ => Iff.rfl) (.pure _) <|
    .map (fun _ => CmdOutcome.ok .nothing) (clockLevels_delayUnread tdi count finalTms)

/-! #### The SWD line -/

theorem turnaround_withoutDelays (dir : Dir) (s : State) :
    turnaround dir (withoutDelays s) = withoutDelays (turnaround dir s) := by
  simp [turnaround_eq, withoutDelays, delayEvents_zero, eraseDelays_append, eraseDelays_turnEvents]

theorem sendBits_withoutDelays (bits : Word) (count : Nat) (s : State) :
    sendBits bits count (withoutDelays s) = withoutDelays (sendBits bits count s) := by
  simp [sendBits_eq, withoutDelays, delayEvents_zero, eraseDelays_append, eraseDelays_turnEvents, eraseDelays_outCycles]

theorem sendBitsParity_withoutDelays (value : Word) (count : Nat) (s : State) :
    sendBitsParity value count (withoutDelays s) = withoutDelays (sendBitsParity value count s) := by
  simp [sendBitsParity_eq, withoutDelays, delayEvents_zero, eraseDelays_append, eraseDelays_turnEvents,
    eraseDelays_outCycles]

theorem receiveBits_delayUnread (count : Nat) : DelayUnread (receiveBits count) := by
  intro s
  simp [receiveBits_eq, withoutDelays, delayEvents_zero, eraseDelays_append, eraseDelays_turnEvents,
    eraseDelays_inCycles]

theorem receiveBitsParity_delayUnread (count : Nat) : DelayUnread (receiveBitsParity count) := by
  intro s
  simp [receiveBitsParity_eq, withoutDelays, delayEvents_zero, eraseDelays_append, eraseDelays_turnEvents,
    eraseDelays_inCycles]

theorem turnLine_withoutDelays (s : State) : turnLine (withoutDelays s) = withoutDelays (turnLine s) := by
  rw [turnLine_eq, turnLine_eq]
  exact turnaround_withoutDelays (otherDir s.swdDir) s

theorem seqOut_delayUnread (bits : Word) (count : Nat) : DelayUnread (seqOut bits count) :=
  .ite (fun _ => _) (fun _ => Iff.rfl) (.pure _) fun s => congrArg _ (sendBits_withoutDelays bits count s)

theorem seqOutWithParity_delayUnread (value : Word) (count : Nat) : DelayUnread (seqOutWithParity value count) :=
  .ite (fun _ => _) (fun _ => Iff.rfl) (.pure _) fun s => congrArg _ (sendBitsParity_withoutDelays value count s)

theorem seqIn_delayUnread (count : Nat) : DelayUnread (seqIn count) :=
  .ite (fun _ => _) (fun _ => Iff.rfl) (.pure _) <| .map (fun v => CmdOutcome.ok (.word v)) (receiveBits_delayUnread count)

theorem seqInWithParity_delayUnread (count : Nat) : DelayUnread (seqInWithParity count) :=
  .ite (fun _ => _) (fun _ => Iff.rfl) (.pure _) <|
    .map (fun r => CmdOutcome.ok (.wordParity r.1 r.2)) (receiveBitsParity_delayUnread count)

/-! #### Packet phases -/

theorem sendRequest_withoutDelays (p : Params) (apndp rnw : Bool) (a : BitVec 2) (s : State) :
    sendRequest p apndp rnw a (withoutDelays s) = withoutDelays (sendRequest p apndp rnw a s) :=
  sendBits_withoutDelays _ 8 { s with req := makeRequest p apndp rnw a }

theorem receiveAck_withoutDelays (s : State) : receiveAck (withoutDelays s) = withoutDelays (receiveAck s) := by
  rw [receiveAck, receiveBits_delayUnread, receiveAck]
  generalize receiveBits 3 s = r
  rfl

theorem writeDataPhase_withoutDelays (data : Word) (s : State) :
    writeDataPhase data (withoutDelays s) = withoutDelays (writeDataPhase data s) :=
  sendBitsParity_withoutDelays data 32 { s with wdata := data }

theorem readDataPhase_withoutDelays (s : State) : readDataPhase (withoutDelays s) = withoutDelays (readDataPhase s) := by
  rw [readDataPhase, receiveBitsParity_delayUnread, readDataPhase]
  generalize receiveBitsParity 32 s = r
  rfl

theorem dataPhase_withoutDelays (rnw : Bool) (v : Word) (s : State) :
    dataPhase rnw v (withoutDelays s) = withoutDelays (dataPhase rnw v s) := by
  cases rnw
  · exact writeDataPhase_withoutDelays v s
  · exact readDataPhase_withoutDelays s

theorem leaveReq_withoutDelays (s : State) : leaveReq (withoutDelays s) = withoutDelays (leaveReq s) := rfl

theorem leaveData_withoutDelays (s : State) : leaveData (withoutDelays s) = withoutDelays (leaveData s) := rfl

theorem requestStep_withoutDelays (apndp rnw : Bool) (a : BitVec 2) (s : State) :
    requestStep apndp rnw a (withoutDelays s) = withoutDelays (requestStep apndp rnw a s) := by
  simp only [requestStep, sendRequest_withoutDelays, withoutDelays_phase, leaveReq_withoutDelays,
    apply_ite withoutDelays]

theorem leaveAck_withoutDelays (s : State) :
    leaveAck Config.params (withoutDelays s) = withoutDelays (leaveAck Config.params s) := by
  rw [leaveAck_eq, leaveAck_eq]; rfl

theorem ackStep_withoutDelays (v : BitVec 3) (s : State) :
    ackStep v (withoutDelays s) = withoutDelays (ackStep v s) := by
  have hp : presentSwdio (bitsOf v 3) (withoutDelays s) = withoutDelays (presentSwdio (bitsOf v 3) s) := rfl
  simp only [ackStep, hp, receiveAck_withoutDelays, leaveAck_withoutDelays, withoutDelays_phase,
    apply_ite withoutDelays]

theorem dataWStep_withoutDelays (data : Word) (s : State) :
    dataWStep data (withoutDelays s) = withoutDelays (dataWStep data s) := by
  simp only [dataWStep, writeDataPhase_withoutDelays, withoutDelays_phase, leaveData_withoutDelays,
    apply_ite withoutDelays]

theorem dataRStep_withoutDelays (data : Word) (par : Bool) (s : State) :
    dataRStep data par (withoutDelays s) = withoutDelays (dataRStep data par s) := by
  have hp : presentSwdio (bitsOf data 32 ++ [par]) (withoutDelays s)
      = withoutDelays (presentSwdio (bitsOf data 32 ++ [par]) s) := rfl
  simp only [dataRStep, hp, readDataPhase_withoutDelays, withoutDelays_phase, leaveData_withoutDelays,
    apply_ite withoutDelays]

theorem WireMeaning.op_withoutDelays {f : Format} {op : State → State} (h : WireMeaning f op) (s : State) :
    op (withoutDelays s) = withoutDelays (op s) := by
  cases h with
  | request apndp rnw a => exact requestStep_withoutDelays apndp rnw a s
  | ack v => exact ackStep_withoutDelays v s
  | dataW data => exact dataWStep_withoutDelays data s
  | dataR data par => exact dataRStep_withoutDelays data par s
  | turn => exact turnLine_withoutDelays s
  | tmsseq bits count => exact clockTms_withoutDelays (bitsOf bits count) s
  | shift tdi count finalTms => exact congrArg Prod.snd (clockLevels_delayUnread tdi count finalTms s)

/-! #### Accesses -/

theorem swdTransaction_delayUnread (p : Params) (apndp rnw : Bool) (a : BitVec 2) (v : Word) :
    DelayUnread (swdTransaction p apndp rnw a v) := by
  intro s
  simp only [swdTransaction, sendRequest_withoutDelays, receiveAck_withoutDelays, withoutDelays_ack,
    dataPhase_withoutDelays]
  split <;> rfl

theorem attempt_delayUnread (p : Params) (apndp rnw : Bool) (a : BitVec 2) (v : Word) :
    DelayUnread (attempt p apndp rnw a v) :=
  fun s => swdTransaction_delayUnread p apndp rnw a v { s with phase := .req, tries := s.tries + 1 }

theorem attempts_delayUnread (p : Params) (apndp rnw : Bool) (a : BitVec 2) (v : Word) (more : Nat) :
    DelayUnread (attempts p apndp rnw a v more) := by
  induction more with
  | zero => exact attempt_delayUnread p apndp rnw a v
  | succ more ih =>
    intro s
    simp only [attempts, attempt_delayUnread p apndp rnw a v s, ih _]
    split <;> rfl

/-- The end of an access adds no event. -/
theorem finishAccess_delayUnread (apndp rnw : Bool) (a : BitVec 2) (v : Word) (c : AckClass) :
    DelayUnread (finishAccess Config.params apndp rnw a v c) := by
  intro s
  cases c with
  | ok => simp only [finishAccess, clearFaultOnAbort_eq, trackSelect_eq]; rfl
  | wait | fault | invalid => simp only [finishAccess, untrackSelect_eq]; rfl

theorem lowAccess_delayUnread (rnw : Bool) (addr : BitVec 9) (v : Word) :
    DelayUnread (lowAccess Config.params rnw addr v) := by
  have hloop : DelayUnread fun s => attempts Config.params (addrApndp addr) rnw (addrSlot addr) v
      Config.params.open5.retryPred { s with tries := 0 } :=
    fun s => attempts_delayUnread _ _ _ _ _ _ { s with tries := 0 }
  have hend (c : AckClass) : DelayUnread fun s =>
      finishAccess Config.params (addrApndp addr) rnw (addrSlot addr) v c { s with phase := .done } :=
    fun s => finishAccess_delayUnread _ _ _ _ c { s with phase := .done }
  exact .ite (fun _ => _) (fun _ => Iff.rfl) (hloop.bind hend) (.pure _)

/-- A bank step tests the tracking, which is the same. -/
theorem ensureSelectDp_delayUnread (bank : BitVec 4) : DelayUnread (ensureSelectDp Config.params bank) :=
  .ite (fun s => s.selValid ∧ s.selDpbank = bank) (fun _ => Iff.rfl) (.pure _) fun s =>
    lowAccess_delayUnread false _ (if s.selValid then selectValue s.selApsel s.selApbank bank else selectValue 0 0 bank) s

theorem ensureSelectAp_delayUnread (apsel : BitVec 8) (bank : BitVec 4) :
    DelayUnread (ensureSelectAp Config.params apsel bank) :=
  .ite (fun s => s.selValid ∧ s.selApsel = apsel ∧ s.selApbank = bank) (fun _ => Iff.rfl) (.pure _) fun s =>
    lowAccess_delayUnread false _ (selectValue apsel bank (if s.selValid then s.selDpbank else 0)) s

theorem dpRead_delayUnread (addr : Byte) : DelayUnread (dpRead Config.params addr) :=
  .ite (fun _ => _) (fun _ => Iff.rfl) ((ensureSelectDp_delayUnread _).andThenOk (lowAccess_delayUnread _ _ _)) (.pure _)

theorem dpWrite_delayUnread (addr : Byte) (v : Word) : DelayUnread (dpWrite Config.params addr v) :=
  .ite (fun _ => _) (fun _ => Iff.rfl)
    (.ite (fun _ => _) (fun _ => Iff.rfl) (lowAccess_delayUnread _ _ _)
      ((ensureSelectDp_delayUnread _).andThenOk (lowAccess_delayUnread _ _ _)))
    (.pure _)

theorem apRead_delayUnread (apsel addr : Byte) : DelayUnread (apRead Config.params apsel addr) :=
  .ite (fun _ => _) (fun _ => Iff.rfl) ((ensureSelectAp_delayUnread _ _).andThenOk (lowAccess_delayUnread _ _ _)) (.pure _)

theorem apWrite_delayUnread (apsel addr : Byte) (v : Word) : DelayUnread (apWrite Config.params apsel addr v) :=
  .ite (fun _ => _) (fun _ => Iff.rfl) ((ensureSelectAp_delayUnread _ _).andThenOk (lowAccess_delayUnread _ _ _)) (.pure _)

theorem loadTargetid_delayUnread : DelayUnread (loadTargetid Config.params) := by
  intro s
  simp only [loadTargetid, dpRead_delayUnread targetidAddr s]
  obtain ⟨o, t⟩ := dpRead Config.params targetidAddr s
  cases o with
  | ok v => cases v <;> rfl
  | _ => rfl

theorem dpAttach_delayUnread : DelayUnread (dpAttach Config.params) := by
  intro s
  have hs : { withoutDelays s with fault := false, selValid := false, idcode := none, targetid := none }
      = withoutDelays { s with fault := false, selValid := false, idcode := none, targetid := none } := rfl
  simp only [dpAttach, hs, lowAccess_delayUnread true _ 0 _]
  obtain ⟨o, t⟩ := lowAccess Config.params true (slotAddr Config.params.aIdcode) 0
    { s with fault := false, selValid := false, idcode := none, targetid := none }
  cases o with
  | ok v =>
    cases v with
    | word w =>
      by_cases hv : Config.params.open5.dpV2 = true
      · simp only [hv, if_true]
        exact loadTargetid_delayUnread { t with idcode := some w }
      · simp only [hv]; rfl
    | _ => rfl
  | _ => rfl

/-! #### Instructions -/

theorem readRegister_delayUnread (r : State → Option Word) (h : ∀ s, r (withoutDelays s) = r s) :
    DelayUnread fun s => readRegister (r s) s := by
  intro s
  simp only [h]
  cases r s <;> rfl

theorem commandBody_delayUnread {i : Instr} (hi : i.format = .cmd) (h : ∀ n, i ≠ .setDelay n) :
    DelayUnread (commandBody i) := by
  cases i with
  | jtagReset => exact jtagReset_delayUnread _
  | jtagNext tms tdi => exact (jtagNext_delayUnread tms tdi).map fun tdo => CmdOutcome.ok (.bit tdo)
  | shiftTmsSequence bits count => exact shiftTmsSequence_delayUnread bits count
  | shiftData tdi count finalTms => exact shiftData_delayUnread _ tdi count finalTms
  | shiftDataDiscardOutput tdi count finalTms => exact shiftDataDiscardOutput_delayUnread _ tdi count finalTms
  | seqOut bits count => exact seqOut_delayUnread bits count
  | seqOutWithParity value count => exact seqOutWithParity_delayUnread value count
  | seqIn count => exact seqIn_delayUnread count
  | seqInWithParity count => exact seqInWithParity_delayUnread count
  | setDelay n => exact absurd rfl (h n)
  | lowAccess rnw addr v => exact lowAccess_delayUnread rnw addr v
  | dpRead addr => exact dpRead_delayUnread addr
  | dpWrite addr v => exact dpWrite_delayUnread addr v
  | dpAbort v => exact lowAccess_delayUnread false (slotAddr Config.params.aAbort) v
  | apRead apsel addr => exact apRead_delayUnread apsel addr
  | apWrite apsel addr v => exact apWrite_delayUnread apsel addr v
  | dpAttach => exact dpAttach_delayUnread
  | faultRead => exact fun _ => rfl
  | idcodeRead => exact readRegister_delayUnread State.idcode fun _ => rfl
  | targetidRead => exact readRegister_delayUnread State.targetid fun _ => rfl
  | _ => cases hi

/-- Two states equal up to delay run every command to the same outcome, and to states equal up to delay. -/
theorem commandBody_sameUpToDelay {i : Instr} {s t : State} (hi : i.format = .cmd) (h : SameUpToDelay s t) :
    (commandBody i s).1 = (commandBody i t).1 ∧ SameUpToDelay (commandBody i s).2 (commandBody i t).2 := by
  by_cases hd : ∃ n, i = .setDelay n
  · obtain ⟨n, rfl⟩ := hd
    exact ⟨rfl, h⟩
  · have hu := commandBody_delayUnread hi fun n hn => hd ⟨n, hn⟩
    exact Prod.mk.inj ((hu s).symm.trans ((congrArg (commandBody i) h).trans (hu t)))

theorem phase_eq_of_sameUpToDelay {s t : State} (h : SameUpToDelay s t) : t.phase = s.phase :=
  (congrArg State.phase h).symm

/-- Handing over the same outcome keeps two states equal up to delay. -/
theorem endCommand_sameUpToDelay {r q : CmdOutcome × State} (ho : r.1 = q.1) (h : SameUpToDelay r.2 q.2) :
    SameUpToDelay (endCommand r) (endCommand q) := by
  have he (r : CmdOutcome × State) : withoutDelays (endCommand r) = endCommand (r.1, withoutDelays r.2) := rfl
  rw [sameUpToDelay_iff, he, he, ho, (sameUpToDelay_iff _ _).mp h]

/-- Settles O12: every instruction but `set_delay` commutes with erasing delays, and `set_delay` writes nothing but what is
erased. -/
theorem delayIndependence : Obligations.DelayIndependence := by
  intro i s t s' hst h
  by_cases hc : i.format = .cmd
  · obtain ⟨hp, rfl⟩ := exec_command_next hc h
    obtain ⟨ho, hb⟩ := commandBody_sameUpToDelay hc hst
    exact ⟨_, exec_command_idle hc ((phase_eq_of_sameUpToDelay hst).trans hp), endCommand_sameUpToDelay ho hb⟩
  · obtain ⟨op, hop, he⟩ := exec_wire hc
    rw [he] at h
    cases h
    refine ⟨op t, he t, ?_⟩
    rw [sameUpToDelay_iff] at hst ⊢
    rw [← hop.op_withoutDelays, ← hop.op_withoutDelays, hst]

end Sys2Proof.Machine
end

section
/-! PROOFS. The family 41_swd_sequence.md: what parity is, what each sequence command does on the line of a consistent state,
and how many SWCLK cycles it spends in any state. -/

namespace Sys2Proof.Machine
open Sys2Proof.Safety

/-! ### Parity -/

theorem popcount_eq_countP {w : Nat} (v : BitVec w) : popcount v = (List.range w).countP (fun i => v.getLsbD i) := by
  rw [popcount, bitsOf, List.count, List.countP_map]
  exact List.countP_congr fun i _ => by simp

/-- An exclusive or over a list says whether the number of its 1 bits is odd. -/
theorem foldl_xor_eq (f : Nat → Bool) (l : List Nat) (acc : Bool) :
    l.foldl (fun acc i => acc ^^ f i) acc = (acc ^^ (l.countP f % 2 == 1)) := by
  induction l generalizing acc with
  | nil => simp
  | cons i l ih =>
    rw [List.foldl_cons, ih, List.countP_cons]
    rcases Nat.mod_two_eq_zero_or_one (l.countP f) with h | h <;> cases f i <;> simp [h, Nat.add_mod]

/-- Settles O32: all three parts speak of the number of 1 bits, which is even or odd. -/
theorem parityIsXor : Obligations.ParityIsXor := by
  intro v
  rw [foldl_xor_eq, parity, popcount_eq_countP]
  rcases Nat.mod_two_eq_zero_or_one ((List.range 32).countP fun i => v.getLsbD i) with h | h <;> simp [h, Nat.add_mod]

/-! ### Counts out of range, and `set_delay` -/

/-- Settles O37: each command tests its count before it turns the line. -/
theorem swdBadCountRefused : Obligations.SwdBadCountRefused := by
  intro i v count s hp hc hi
  simp only [List.mem_cons, List.not_mem_nil, or_false] at hi
  rcases hi with rfl | rfl | rfl | rfl <;> exact exec_of_body_refused rfl hp (if_pos hc)

/-- Settles O38: the body is the one write. -/
theorem setDelayWrites : Obligations.SetDelayWrites := fun _ _ hp => exec_command_idle rfl hp

/-! ### Counts in range -/

theorem seqOut_eq (bits : Word) {count : Nat} (s : State) (h : count ≤ 32) :
    seqOut bits count s = (.ok .nothing, sendBits bits count s) := if_neg (Nat.not_lt.mpr h)

theorem seqOutWithParity_eq (value : Word) {count : Nat} (s : State) (h : count ≤ 32) :
    seqOutWithParity value count s = (.ok .nothing, sendBitsParity value count s) := if_neg (Nat.not_lt.mpr h)

theorem seqIn_eq {count : Nat} (s : State) (h : count ≤ 32) :
    seqIn count s = (.ok (.word (receiveBits count s).1), (receiveBits count s).2) := if_neg (Nat.not_lt.mpr h)

theorem seqInWithParity_eq {count : Nat} (s : State) (h : count ≤ 32) :
    seqInWithParity count s =
      (.ok (.wordParity (receiveBitsParity count s).1.1 (receiveBitsParity count s).1.2), (receiveBitsParity count s).2) :=
  if_neg (Nat.not_lt.mpr h)

/-- The bits of a received word are the levels, and 0 past the last (R104). -/
theorem getLsbD_wordOfBits_of_lt {w k : Nat} (bs : List Bool) (hk : k < w) :
    (wordOfBits w bs).getLsbD k = bs.getD k false := by
  rw [getLsbD_wordOfBits, decide_eq_true hk, Bool.true_and]

/-- SWCLK is low between commands, so an operation that leaves it low or alone does not change it (R110). -/
theorem swclk_low {s : State} (hs : Consistent s) (p : Prop) [Decidable p] : (if p then s.swclk else false) = s.swclk := by
  rw [hs.swclkLow, ite_self]

/-- Settles O33: the line turned to DRIVE, then the output loop. -/
theorem seqOutSends : Obligations.SeqOutSends := by
  intro bits count s hs hp hc
  rw [exec_command_idle rfl hp, commandBody, seqOut_eq bits s hc, sendBits_eq, swdioOe_driven hs, swclk_low hs,
    getLastD_bitsOf]
  rfl

/-- Settles O34: as `seq_out`, and one cycle more for the parity. -/
theorem seqOutWithParitySends : Obligations.SeqOutWithParitySends := by
  intro value count s hs hp hc
  rw [exec_command_idle rfl hp, commandBody, seqOutWithParity_eq value s hc, sendBitsParity_eq, swdioOe_driven hs]
  simp only [endCommand, hs.swclkLow]

/-- Settles O35: the line turned to FLOAT, then the input loop, whose levels are packed. -/
theorem seqInReceives : Obligations.SeqInReceives := by
  intro count s hs hp hc
  refine ⟨_, fun _ => getLsbD_wordOfBits_of_lt _, ?_⟩
  rw [exec_command_idle rfl hp, commandBody, seqIn_eq s hc, receiveBits_eq, swdioOe_floated hs, swclk_low hs]
  rfl

/-- Settles O36: of the `count + 1` levels drawn the last is the parity bit. -/
theorem seqInWithParityReceives : Obligations.SeqInWithParityReceives := by
  intro count s hs hp hc
  rw [InputPin.draw_succ]
  refine ⟨_, _, _, InputPin.draw_length .., rfl, fun _ => getLsbD_wordOfBits_of_lt _, ?_⟩
  rw [exec_command_idle rfl hp, commandBody, seqInWithParity_eq s hc, receiveBitsParity_eq]
  simp only [endCommand, hs.swclkLow, beq_eq_decide]

/-! ### Cycles -/

theorem delayEvents_swclk (n : Word) : (delayEvents n).count (.write .swclk true) = 0 := delayEvents_count n (by simp)

theorem inCycles_swclk (n : Word) (bs : List Bool) : swclkCycles (inCycles (delayEvents n) bs) = bs.length := by
  rw [swclkCycles, inCycles_count bs (delayEvents_swclk n) (by simp) (by simp), if_pos rfl]

theorem inCycles_mode (n : Word) (dir : Dir) (bs : List Bool) : (inCycles (delayEvents n) bs).count (.mode dir) = 0 := by
  rw [inCycles_count bs (delayEvents_count n (by simp)) (by simp) (by simp), if_neg (by simp)]

/-- A turnaround that has to change the direction switches the mode once, to the direction asked for (R103, D5). -/
theorem turnEvents_mode (n : Word) (now wanted dir : Dir) :
    (turnEvents (delayEvents n) now wanted).count (.mode dir) = if wanted ≠ now ∧ dir = wanted then 1 else 0 := by
  have hd := delayEvents_count n (e := .mode dir) (by simp)
  by_cases h : wanted = now
  · simp [turnEvents, h]
  · cases wanted <;> cases dir <;> simp [turnEvents, h, swclkCycle, hd]

theorem sendBits_swclkCycles (bits : Word) (count : Nat) (s : State) :
    swclkCycles (sendBits bits count s).trace = swclkCycles s.trace + turnCost s.swdDir .drive + count := by
  have hd := delayEvents_swclk s.delayCount
  simp only [sendBits_eq, swclkCycles_append, turnEvents_swclk _ _ hd, outCycles_swclk _ hd, bitsOf_length]

theorem sendBitsParity_swclkCycles (value : Word) (count : Nat) (s : State) :
    swclkCycles (sendBitsParity value count s).trace = swclkCycles s.trace + turnCost s.swdDir .drive + count + 1 := by
  have hd := delayEvents_swclk s.delayCount
  simp only [sendBitsParity_eq, swclkCycles_append, turnEvents_swclk _ _ hd, outCycles_swclk _ hd, List.length_append,
    bitsOf_length, List.length_singleton, Nat.add_assoc]

theorem receiveBits_swclkCycles (count : Nat) (s : State) :
    swclkCycles (receiveBits count s).2.trace = swclkCycles s.trace + turnCost s.swdDir .float + count := by
  have hd := delayEvents_swclk s.delayCount
  simp only [receiveBits_eq, swclkCycles_append, turnEvents_swclk _ _ hd, inCycles_swclk, InputPin.draw_length]

/-- The two cycles more are the parity bit's and the turnaround's back to DRIVE, which is never spared (R105). -/
theorem receiveBitsParity_swclkCycles (count : Nat) (s : State) :
    swclkCycles (receiveBitsParity count s).2.trace = swclkCycles s.trace + turnCost s.swdDir .float + count + 2 := by
  have hd := delayEvents_swclk s.delayCount
  have hback : turnCost .float .drive = 1 := rfl
  simp only [receiveBitsParity_eq, swclkCycles_append, turnEvents_swclk _ _ hd, inCycles_swclk, List.length_append,
    InputPin.draw_length, List.length_singleton, hback, Nat.add_assoc]

/-- Settles O40: a command in range is its bits on the line, whose cycles and direction are known in every state. -/
theorem swdCycleCounts : Obligations.SwdCycleCounts := by
  intro s t v n hn
  refine ⟨fun h => ?_, fun h => ?_, fun h => ?_, fun h => ?_⟩ <;> obtain ⟨-, rfl⟩ := exec_command_next rfl h
  · rw [commandBody, seqOut_eq v s hn]
    exact ⟨sendBits_swclkCycles v n s, congrArg State.swdDir (sendBits_eq v n s)⟩
  · rw [commandBody, seqOutWithParity_eq v s hn]
    exact ⟨sendBitsParity_swclkCycles v n s, congrArg State.swdDir (sendBitsParity_eq v n s)⟩
  · rw [commandBody, seqIn_eq s hn]
    exact ⟨receiveBits_swclkCycles n s, congrArg (·.2.swdDir) (receiveBits_eq n s)⟩
  · rw [commandBody, seqInWithParity_eq s hn]
    exact ⟨receiveBitsParity_swclkCycles n s, congrArg (·.2.swdDir) (receiveBitsParity_eq n s)⟩

/-- A sequence command that leaves the line floated leaves a consistent state consistent (R104, R205 (b)). -/
theorem consistent_floated {s : State} (hs : Consistent s) (pin : InputPin) (tr : List PinEvent) (os : List CmdOutcome) :
    Consistent { s with swdDir := .float, swdioOe := false, swdioIn := pin, trace := tr, outcomes := os } :=
  { hs with oeFollowsDir := rfl }

/-- Settles O39: the first `seq_in` leaves a consistent state with the line floated, so the second spends no turnaround. -/
theorem consecutiveSeqInFloatsOnce : Obligations.ConsecutiveSeqInFloatsOnce := by
  intro m n s hs hp hdrive hm hn
  obtain ⟨v, -, ht⟩ := seqInReceives m s hs hp hm
  obtain ⟨w, -, hu⟩ := seqInReceives n _ (consistent_floated hs ..) hp hn
  have hd := delayEvents_swclk s.delayCount
  refine ⟨_, _, _, ht, hu, by simp only [List.append_assoc]; rfl, ?_, ?_, ?_⟩
  · simp [hdrive, turnEvents_mode, inCycles_mode]
  · simp [hdrive, turnEvents_mode, inCycles_mode]
  · simp [hdrive, swclkCycles_append, turnEvents_swclk _ _ hd, inCycles_swclk, turnCost]
    omega

end Sys2Proof.Machine
end

section
/-! PROOFS. The family 43_dp_sequencer.md, first part: what moves the SELECT tracking. -/

namespace Sys2Proof.Machine
open Sys2Proof.Safety

/-! ### When the SELECT tracking moves -/

/-- Between `s` and `t` a word was written to SELECT and acknowledged OK, and `t` tracks its fields (R144). -/
def SelectWritten (s t : State) : Prop :=
  ∃ (v : Word) (pre post : List PinEvent),
    t.selApsel = v.extractLsb' 24 8 ∧ t.selApbank = v.extractLsb' 4 4 ∧ t.selDpbank = v.extractLsb' 0 4
    ∧ t.trace = s.trace ++ pre ++ writeTransaction (delayEvents s.delayCount) 0xB1 v ++ post

/-- What any operation does to the tracking: it may drop it, and leaves a valid one only as it was or by a SELECT write
(R144). With it what every operation keeps: events are only added, and an idle block stays idle. -/
structure TrackMove (s t : State) : Prop where
  grows : s.trace <+: t.trace
  idle : s.phase = .idle → t.phase = .idle
  valid : t.selValid = true → SameTracking s t ∨ SelectWritten s t

theorem grows_refl (s : State) : s.trace <+: s.trace := ⟨[], List.append_nil _⟩

theorem sameTracking_trans {s t u : State} (h : SameTracking s t) (h' : SameTracking t u) : SameTracking s u := by
  obtain ⟨hv, hs, ha, hd⟩ := h
  obtain ⟨hv', hs', ha', hd'⟩ := h'
  exact ⟨hv'.trans hv, hs'.trans hs, ha'.trans ha, hd'.trans hd⟩

/-- Where the tracking is then left alone, the write before it still is what is tracked. -/
theorem SelectWritten.then_same {s t u : State} (h : SelectWritten s t) (h' : SameTracking t u)
    (hg : t.trace <+: u.trace) : SelectWritten s u := by
  obtain ⟨v, pre, post, hs, ha, hd, ht⟩ := h
  obtain ⟨-, hs', ha', hd'⟩ := h'
  obtain ⟨tr, hu⟩ := hg
  exact ⟨v, pre, post ++ tr, hs'.trans hs, ha'.trans ha, hd'.trans hd, by rw [← hu, ht, List.append_assoc]⟩

/-- A write after other events with the same delay. -/
theorem SelectWritten.of_grows {s t u : State} (hg : s.trace <+: t.trace) (hd : t.delayCount = s.delayCount)
    (h : SelectWritten t u) : SelectWritten s u := by
  obtain ⟨v, pre, post, hs, ha, hb, hu⟩ := h
  obtain ⟨tr, ht⟩ := hg
  exact ⟨v, tr ++ pre, post, hs, ha, hb, by rw [hu, ← ht, hd, List.append_assoc s.trace]⟩

theorem TrackMove.trans {s t u : State} (h : TrackMove s t) (hd : t.delayCount = s.delayCount) (h' : TrackMove t u) :
    TrackMove s u where
  grows := h.grows.trans h'.grows
  idle hp := h'.idle (h.idle hp)
  valid hu := by
    rcases h'.valid hu with hsame | hw
    · have ht : t.selValid = true := hsame.1 ▸ hu
      rcases h.valid ht with hsame' | hw
      · exact .inl (sameTracking_trans hsame' hsame)
      · exact .inr (hw.then_same hsame h'.grows)
    · exact .inr (hw.of_grows h.grows hd)

theorem TrackMove.of_same {s t : State} (hg : s.trace <+: t.trace) (hp : t.phase = s.phase) (h : SameTracking s t) :
    TrackMove s t := ⟨hg, hp.trans, fun _ => .inl h⟩

theorem TrackMove.of_dropped {s t : State} (hg : s.trace <+: t.trace) (hp : s.phase = .idle → t.phase = .idle)
    (h : t.selValid = false) : TrackMove s t := ⟨hg, hp, fun ht => Bool.noConfusion (h.symm.trans ht)⟩

theorem TrackMove.refl (s : State) : TrackMove s s := .of_same (grows_refl _) rfl ⟨rfl, rfl, rfl, rfl⟩

theorem JtagOnly.trackMove {s t : State} (h : JtagOnly s t) (hg : s.trace <+: t.trace) : TrackMove s t := by
  obtain ⟨-, -, hsame, -, hc, -⟩ := h.frame
  exact .of_same hg hc.1 hsame

theorem SwdOnly.trackMove {s t : State} (h : SwdOnly s t) (hg : s.trace <+: t.trace) : TrackMove s t := by
  obtain ⟨-, -, hsame, -, hc, -⟩ := h.frame
  exact .of_same hg hc.1 hsame

/-! #### Every loop adds its events -/

theorem clockTms_grows (bs : List Bool) (s : State) : s.trace <+: (clockTms bs s).trace := by
  simp [clockTms_eq]

theorem clockData_grows (finalTms : Bool) (bs : List Bool) (s : State) :
    s.trace <+: (clockData finalTms bs s).2.trace := by
  by_cases h : bs = []
  · subst h; exact grows_refl s
  · simp [clockData_eq _ _ _ h]

theorem shiftTmsSequence_grows (bits : Word) (count : Nat) (s : State) :
    s.trace <+: (shiftTmsSequence bits count s).2.trace := by
  unfold shiftTmsSequence
  split
  · exact grows_refl s
  · exact clockTms_grows _ s

theorem shiftData_grows (p : Params) (tdi : List Byte) (count : Nat) (finalTms : Bool) (s : State) :
    s.trace <+: (shiftData p tdi count finalTms s).2.trace := by
  unfold shiftData
  split
  · exact grows_refl s
  · exact clockData_grows _ _ s

theorem shiftDataDiscardOutput_grows (p : Params) (tdi : List Byte) (count : Nat) (finalTms : Bool) (s : State) :
    s.trace <+: (shiftDataDiscardOutput p tdi count finalTms s).2.trace := by
  unfold shiftDataDiscardOutput
  split
  · exact grows_refl s
  · exact clockData_grows _ _ s

theorem jtagReset_grows (p : Params) (s : State) : s.trace <+: (jtagReset p s).2.trace := by
  simp [jtagReset, clockTms_eq, pulseTrst_eq]

theorem jtagNext_grows (tms tdi : Bool) (s : State) : s.trace <+: (jtagNext tms tdi s).2.trace := by
  simp [jtagNext_eq]

theorem seqOut_grows (bits : Word) (count : Nat) (s : State) : s.trace <+: (seqOut bits count s).2.trace := by
  unfold seqOut
  split <;> simp [sendBits_eq]

theorem seqOutWithParity_grows (value : Word) (count : Nat) (s : State) :
    s.trace <+: (seqOutWithParity value count s).2.trace := by
  unfold seqOutWithParity
  split <;> simp [sendBitsParity_eq]

theorem seqIn_grows (count : Nat) (s : State) : s.trace <+: (seqIn count s).2.trace := by
  unfold seqIn
  split <;> simp [receiveBits_eq]

theorem seqInWithParity_grows (count : Nat) (s : State) : s.trace <+: (seqInWithParity count s).2.trace := by
  unfold seqInWithParity
  split <;> simp [receiveBitsParity_eq]

theorem turnLine_grows (s : State) : s.trace <+: (turnLine s).trace := by
  simp [turnLine_eq, turnaround_eq]

/-! #### Packet phases leave the tracking -/

theorem requestStep_trackMove (apndp rnw : Bool) (a : BitVec 2) (s : State) :
    TrackMove s (requestStep apndp rnw a s) := by
  obtain ⟨hsame, -⟩ := (requestStep_packetOnly apndp rnw a s).tracking_outcomes
  refine ⟨?_, fun hp => ?_, fun _ => .inl hsame⟩ <;> rw [requestStep, sendRequest_eq]
  · split <;> simp
  · simp [hp]

theorem leaveAck_trace (s : State) : (leaveAck Config.params s).trace = s.trace := by rw [leaveAck_eq]

theorem ackStep_trackMove (v : BitVec 3) (s : State) : TrackMove s (ackStep v s) := by
  obtain ⟨hsame, -⟩ := (ackStep_packetOnly v s).tracking_outcomes
  refine ⟨?_, fun hp => ?_, fun _ => .inl hsame⟩
  · have hg : s.trace <+: (receiveAck (presentSwdio (bitsOf v 3) s)).trace := by simp [receiveAck_eq]
    unfold ackStep
    split
    · rwa [leaveAck_trace]
    · exact hg
  · simp [ackStep, receiveAck_eq, hp]

theorem dataWStep_trackMove (data : Word) (s : State) : TrackMove s (dataWStep data s) := by
  obtain ⟨hsame, -⟩ := (dataWStep_packetOnly data s).tracking_outcomes
  refine ⟨?_, fun hp => ?_, fun _ => .inl hsame⟩ <;> rw [dataWStep, writeDataPhase_eq]
  · split <;> simp
  · simp [hp]

theorem dataRStep_trackMove (data : Word) (par : Bool) (s : State) : TrackMove s (dataRStep data par s) := by
  obtain ⟨hsame, -⟩ := (dataRStep_packetOnly data par s).tracking_outcomes
  refine ⟨?_, fun hp => ?_, fun _ => .inl hsame⟩ <;> rw [dataRStep, readDataPhase_eq]
  · split <;> simp
  · simp [hp]

theorem WireMeaning.trackMove {f : Format} {op : State → State} (h : WireMeaning f op) (s : State) :
    TrackMove s (op s) := by
  cases h with
  | request apndp rnw a => exact requestStep_trackMove apndp rnw a s
  | ack v => exact ackStep_trackMove v s
  | dataW data => exact dataWStep_trackMove data s
  | dataR data par => exact dataRStep_trackMove data par s
  | turn => exact (turnLine_swdOnly s).trackMove (turnLine_grows s)
  | tmsseq bits count => exact (clockTms_jtagOnly _ s).trackMove (clockTms_grows _ s)
  | shift tdi count finalTms => exact (clockData_jtagOnly _ _ s).trackMove (clockData_grows _ _ s)

/-! #### Accesses -/

theorem AccessOnly.delayCount {s t : State} (h : AccessOnly s t) : t.delayCount = s.delayCount :=
  (congrArg State.delayCount h :)

/-- A SELECT write acknowledged OK ends with its transaction, and is tracked (R126, R144). -/
theorem afterWrite_selectWritten {apndp : Bool} {a : BitVec 2} (h : apndp = false ∧ a = 2) (n : Nat) (v : Word)
    (s : State) : SelectWritten s (afterWrite apndp a n v s) := by
  obtain ⟨rfl, rfl⟩ := h
  have hr : requestByte false false 2 = 0xB1 := rfl
  refine ⟨v, waitEvents (delayEvents s.delayCount) 0xB1 n s.swdDir
    ++ turnEvents (delayEvents s.delayCount) (waitDir n s.swdDir) .drive, [], rfl, rfl, rfl, ?_⟩
  simp only [afterWrite, accessEvents, requestEvents, writeTransaction, hr, List.append_assoc, List.append_nil]

/-- One access moves the tracking only where it writes SELECT (R144). -/
theorem lowAccess_trackMove (rnw : Bool) (addr : BitVec 9) (v : Word) (s : State) :
    TrackMove s (lowAccess Config.params rnw addr v s).2 := by
  rcases lowAccess_cases rnw addr v s with ⟨-, h⟩ | ⟨-, n, pin, -, ⟨ack, -, -, h⟩ | ⟨-, w, par, h⟩ | ⟨-, h⟩⟩ <;>
    rw [h]
  · exact .refl s
  · have hg : s.trace <+: (afterNoData (addrApndp addr) rnw (addrSlot addr) n ack s).trace := ⟨_, rfl⟩
    by_cases hsel : addrApndp addr = false ∧ rnw = false ∧ addrSlot addr = 2
    · exact .of_dropped hg (fun _ => rfl) (if_pos hsel)
    · exact ⟨hg, fun _ => rfl, fun _ => .inl ⟨if_neg hsel, rfl, rfl, rfl⟩⟩
  · exact ⟨by simp [afterRead], fun _ => rfl, fun _ => .inl ⟨rfl, rfl, rfl, rfl⟩⟩
  · refine ⟨by simp [afterWrite], fun _ => rfl, fun _ => ?_⟩
    by_cases hsel : addrApndp addr = false ∧ addrSlot addr = 2
    · exact .inr (afterWrite_selectWritten hsel n v s)
    · exact .inl ⟨if_neg hsel, if_neg hsel, if_neg hsel, if_neg hsel⟩

theorem ensureSelectDp_trackMove (bank : BitVec 4) (s : State) :
    TrackMove s (ensureSelectDp Config.params bank s).2 := by
  unfold ensureSelectDp
  split
  · exact .refl s
  · exact lowAccess_trackMove _ _ _ s

theorem ensureSelectAp_trackMove (apsel : BitVec 8) (bank : BitVec 4) (s : State) :
    TrackMove s (ensureSelectAp Config.params apsel bank s).2 := by
  unfold ensureSelectAp
  split
  · exact .refl s
  · exact lowAccess_trackMove _ _ _ s

/-- An access after a bank step, made or not. -/
theorem TrackMove.andThenOk {s : State} {r : CmdOutcome × State} {next : State → CmdOutcome × State}
    (h : TrackMove s r.2) (hr : AccessOnly s r.2) (h' : TrackMove r.2 (next r.2).2) :
    TrackMove s (andThenOk r next).2 := by
  rcases andThenOk_cases r next with ⟨e, -⟩ | ⟨e, -⟩ <;> rw [e]
  · exact h
  · exact h.trans hr.delayCount h'

theorem dpRead_trackMove (addr : Byte) (s : State) : TrackMove s (dpRead Config.params addr s).2 := by
  unfold dpRead
  split
  · exact (ensureSelectDp_trackMove _ s).andThenOk (ensureSelectDp_accessOnly _ s) (lowAccess_trackMove _ _ _ _)
  · exact .refl s

theorem dpWrite_trackMove (addr : Byte) (v : Word) (s : State) : TrackMove s (dpWrite Config.params addr v s).2 := by
  unfold dpWrite
  split
  · split
    · exact lowAccess_trackMove _ _ _ s
    · exact (ensureSelectDp_trackMove _ s).andThenOk (ensureSelectDp_accessOnly _ s) (lowAccess_trackMove _ _ _ _)
  · exact .refl s

theorem apRead_trackMove (apsel addr : Byte) (s : State) : TrackMove s (apRead Config.params apsel addr s).2 := by
  unfold apRead
  split
  · exact (ensureSelectAp_trackMove _ _ s).andThenOk (ensureSelectAp_accessOnly _ _ s) (lowAccess_trackMove _ _ _ _)
  · exact .refl s

theorem apWrite_trackMove (apsel addr : Byte) (v : Word) (s : State) :
    TrackMove s (apWrite Config.params apsel addr v s).2 := by
  unfold apWrite
  split
  · exact (ensureSelectAp_trackMove _ _ s).andThenOk (ensureSelectAp_accessOnly _ _ s) (lowAccess_trackMove _ _ _ _)
  · exact .refl s

/-- Loading the registers of `dp_attach` is no move. -/
theorem TrackMove.with_attached {s t : State} (h : TrackMove s t) (x y : Option Word) :
    TrackMove s { t with idcode := x, targetid := y } := ⟨h.grows, h.idle, h.valid⟩

/-- `dp_attach` drops the tracking by itself, and moves it from there by its accesses (R154). -/
theorem dpAttach_trackMove (s : State) : TrackMove s (dpAttach Config.params s).2 := by
  obtain ⟨r, hr, h⟩ := dpAttach_cases s
  have hd1 : r.2.delayCount = s.delayCount := by rw [hr]; exact (lowAccess_accessOnly _ _ _ _).delayCount
  have h1 : TrackMove s r.2 := by
    rw [hr]
    exact .trans (t := { s with fault := false, selValid := false, idcode := none, targetid := none })
      (.of_dropped (grows_refl _) id rfl) rfl (lowAccess_trackMove _ _ _ _)
  rcases h with ⟨e, -⟩ | ⟨v, -, ⟨-, e⟩ | ⟨-, r2, hr2, h2⟩⟩
  · rw [e]; exact h1
  · rw [e]; exact h1.with_attached _ _
  · have h3 : TrackMove s r2.2 := by
      rw [hr2]
      exact (h1.with_attached (some v) r.2.targetid).trans hd1 (dpRead_trackMove targetidAddr _)
    rcases h2 with ⟨e, -⟩ | ⟨w, -, e⟩ <;> rw [e]
    · exact h3
    · exact h3.with_attached _ _

/-! #### Instructions -/

theorem commandBody_trackMove {i : Instr} (hi : i.format = .cmd) (s : State) : TrackMove s (commandBody i s).2 := by
  cases i with
  | jtagReset => exact (jtagReset_jtagOnly _ s).trackMove (jtagReset_grows _ s)
  | jtagNext tms tdi => exact (jtagNext_jtagOnly tms tdi s).trackMove (jtagNext_grows tms tdi s)
  | shiftTmsSequence bits count =>
    exact (shiftTmsSequence_jtagOnly bits count s).trackMove (shiftTmsSequence_grows bits count s)
  | shiftData tdi count finalTms =>
    exact (shiftData_jtagOnly _ tdi count finalTms s).trackMove (shiftData_grows _ tdi count finalTms s)
  | shiftDataDiscardOutput tdi count finalTms =>
    exact (shiftDataDiscardOutput_jtagOnly _ tdi count finalTms s).trackMove
      (shiftDataDiscardOutput_grows _ tdi count finalTms s)
  | seqOut bits count => exact (seqOut_swdOnly bits count s).trackMove (seqOut_grows bits count s)
  | seqOutWithParity value count =>
    exact (seqOutWithParity_swdOnly value count s).trackMove (seqOutWithParity_grows value count s)
  | seqIn count => exact (seqIn_swdOnly count s).trackMove (seqIn_grows count s)
  | seqInWithParity count => exact (seqInWithParity_swdOnly count s).trackMove (seqInWithParity_grows count s)
  | setDelay n => exact .of_same (grows_refl _) rfl ⟨rfl, rfl, rfl, rfl⟩
  | lowAccess rnw addr v => exact lowAccess_trackMove rnw addr v s
  | dpRead addr => exact dpRead_trackMove addr s
  | dpWrite addr v => exact dpWrite_trackMove addr v s
  | dpAbort v => exact lowAccess_trackMove false (slotAddr Config.params.aAbort) v s
  | apRead apsel addr => exact apRead_trackMove apsel addr s
  | apWrite apsel addr v => exact apWrite_trackMove apsel addr v s
  | dpAttach => exact dpAttach_trackMove s
  | faultRead => exact .refl s
  | idcodeRead => simp only [commandBody, readRegister_snd]; exact .refl s
  | targetidRead => simp only [commandBody, readRegister_snd]; exact .refl s
  | _ => cases hi

theorem exec_trackMove {i : Instr} {s t : State} (h : exec i s = .next t) : TrackMove s t := by
  by_cases hc : i.format = .cmd
  · obtain ⟨-, rfl⟩ := exec_command_next hc h
    have hb := commandBody_trackMove hc s
    exact ⟨hb.grows, hb.idle, hb.valid⟩
  · obtain ⟨op, hop, he⟩ := exec_wire hc
    rw [he] at h; cases h
    exact hop.trackMove s

/-- What is tracked stays in the trace, and what is newly tracked is in it. -/
theorem TrackMove.tracked {s t : State} (h : TrackMove s t) (hs : Tracked s) : Tracked t := by
  intro ht
  rcases h.valid ht with ⟨hv, ha, hb, hd⟩ | ⟨v, pre, post, ha, hb, hd, htr⟩
  · obtain ⟨v, n, ha', hb', hd', hin⟩ := hs (hv ▸ ht)
    exact ⟨v, n, ha.trans ha', hb.trans hb', hd.trans hd', hin.trans h.grows.isInfix⟩
  · exact ⟨v, s.delayCount, ha, hb, hd, s.trace ++ pre, post, htr.symm⟩

theorem step_idle_trackMove {s t : State} (hp : s.phase = .idle) (h : step s = .next t) : TrackMove s t := by
  rcases step_idle_cases hp h with rfl | ⟨i, rest, he⟩ | ⟨rest, rfl⟩
  · exact .refl t
  · have hb := exec_trackMove he
    exact ⟨hb.grows, hb.idle, hb.valid⟩
  · exact .of_same (grows_refl _) rfl ⟨rfl, rfl, rfl, rfl⟩

/-- Settles O17: every operation moves the tracking in one way, and a step of an idle block is one operation or none. -/
theorem trackingFollowsSelectWrites : Obligations.TrackingFollowsSelectWrites :=
  ⟨fun h => Bool.noConfusion h, fun _ _ _ hs h => (exec_trackMove h).tracked hs,
    fun _ _ hp hs h => ⟨(step_idle_trackMove hp h).idle hp, (step_idle_trackMove hp h).tracked hs⟩,
    fun _ _ _ h => (exec_trackMove h).valid⟩

end Sys2Proof.Machine
end

section
/-! PROOFS. The family 43_dp_sequencer.md, second part: what each command does for given answers of the target. -/

namespace Sys2Proof.Machine
open Sys2Proof.Safety

/-! ### The loop, answered OK in the end -/

/-- The state after `n` attempts answered WAIT, the target's next answers being `q` (R142). -/
def afterWaits (r : Byte) (n : Nat) (q : List Bool) (s : State) : State :=
  { s with
    req := if n = 0 then s.req else r
    ack := if n = 0 then s.ack else 2
    swdDir := waitDir n s.swdDir
    swdioOe := if n = 0 then s.swdioOe else false
    swdioOut := if n = 0 then s.swdioOut else true
    swclk := if n = 0 then s.swclk else false
    phase := if n = 0 then s.phase else .req
    tries := s.tries + n
    swdioIn := ⟨q, s.swdioIn.drawn⟩
    trace := s.trace ++ waitEvents (delayEvents s.delayCount) r n s.swdDir }

/-- After `n` WAITs the loop goes on with as many passes fewer (R142). -/
theorem attempts_eq_afterWaits (apndp rnw : Bool) (a : BitVec 2) (v : Word) {n more : Nat} {q : List Bool} {s : State}
    (hn : n ≤ more) (hq : s.swdioIn.queue = waitAnswers n ++ q) :
    attempts Config.params apndp rnw a v more s
      = attempts Config.params apndp rnw a v (more - n) (afterWaits (requestByte apndp rnw a) n q s) := by
  obtain ⟨k, rfl⟩ := Nat.exists_eq_add_of_le hn
  rw [Nat.add_sub_cancel_left]
  cases n with
  | zero =>
    have hpin : s.swdioIn = ⟨q, s.swdioIn.drawn⟩ := by rw [show q = s.swdioIn.queue from hq.symm]
    rw [Nat.zero_add]
    refine congrArg _ ?_
    simp only [afterWaits, waitDir, waitEvents, if_true, List.append_nil, Nat.add_zero, ← hpin]
  | succ n =>
    rw [attempts_waits apndp rnw a v n k q s hq]
    simp [afterWaits, waitDir]

/-- The loop of a read access answered WAIT `n` times and then OK. -/
theorem attempts_read (apndp : Bool) (a : BitVec 2) (v0 v : Word) (par : Bool) {n more : Nat} {q : List Bool}
    {s : State} (hn : n ≤ more) (hq : s.swdioIn.queue = waitAnswers n ++ (readAnswers v par ++ q)) :
    attempts Config.params apndp true a v0 more s = (.ok,
      { s with
        req := requestByte apndp true a, ack := 1, rdata := v, pok := par == parity v
        swdDir := .drive, swdioOe := true, swdioOut := true, swclk := false
        phase := .req, tries := s.tries + n + 1, swdioIn := ⟨q, s.swdioIn.drawn⟩
        trace := s.trace ++ accessEvents s (requestByte apndp true a) n 1
          ++ readEvents (delayEvents s.delayCount) v par }) := by
  rw [attempts_eq_afterWaits apndp true a v0 hn hq,
    attempts_last (attempt_read apndp a v0 v par q _ rfl) (.inl (by simp))]
  simp [afterWaits, accessEvents]

/-- The loop of a write access answered WAIT `n` times and then OK. -/
theorem attempts_write (apndp : Bool) (a : BitVec 2) (v : Word) {n more : Nat} {q : List Bool} {s : State}
    (hn : n ≤ more) (hq : s.swdioIn.queue = waitAnswers n ++ (bitsOf (1 : BitVec 3) 3 ++ q)) :
    attempts Config.params apndp false a v more s = (.ok,
      { s with
        req := requestByte apndp false a, ack := 1, wdata := v
        swdDir := .drive, swdioOe := true, swdioOut := parity v, swclk := false
        phase := .req, tries := s.tries + n + 1, swdioIn := ⟨q, s.swdioIn.drawn⟩
        trace := s.trace ++ accessEvents s (requestByte apndp false a) n 1
          ++ writeEvents (delayEvents s.delayCount) v }) := by
  rw [attempts_eq_afterWaits apndp false a v hn hq,
    attempts_last (attempt_write apndp a v q _ rfl) (.inl (by simp))]
  simp [afterWaits, accessEvents]

/-! ### One access, answered -/

/-- A consistent idle block to which the target will answer `q` next. -/
structure AnsweredBy (q : List Bool) (s : State) : Prop where
  consistent : Consistent s
  idle : s.phase = .idle
  queue : s.swdioIn.queue = q

/-- An aligned address operand and the fields of its requests (R140). -/
structure Addresses (addr : BitVec 9) (apndp : Bool) (a : BitVec 2) : Prop where
  low : addr.extractLsb' 0 2 = 0
  apndp : addr.getLsbD 8 = apndp
  slot : addr.extractLsb' 2 2 = a

theorem addresses_self {addr : BitVec 9} (h : addr.extractLsb' 0 2 = 0) :
    Addresses addr (addr.getLsbD 8) (addr.extractLsb' 2 2) := ⟨h, rfl, rfl⟩

theorem addresses_fullAddr (apndp : Bool) {addr : Byte} (h : addr.extractLsb' 0 2 = 0) :
    Addresses (fullAddr apndp addr) apndp (addr.extractLsb' 2 2) :=
  ⟨(fullAddr_low apndp addr).trans h, fullAddr_apndp apndp addr, fullAddr_slot apndp addr⟩

theorem addresses_slotAddr (a : BitVec 2) : Addresses (slotAddr a) false a :=
  ⟨slotAddr_low a, slotAddr_apndp a, slotAddr_slot a⟩

section
variable {apndp rnw : Bool} {a : BitVec 2} {addr : BitVec 9} {n : Nat} {q : List Bool} {s : State}

/-- A read access answered WAIT `n` times and then OK (R141, R173). -/
theorem lowAccess_read (ha : Addresses addr apndp a) (v0 : Word) {v : Word} {par : Bool}
    (hn : n < Config.params.retryBound) (h : AnsweredBy (waitAnswers n ++ readAnswers v par ++ q) s) :
    lowAccess Config.params true addr v0 s = (readOutcome v par, afterRead apndp a n v par s) := by
  obtain ⟨hlow, rfl, rfl⟩ := ha
  have hq : s.swdioIn.queue = waitAnswers n ++ (readAnswers v par ++ q) := by rw [h.queue, List.append_assoc]
  have hrest : s.swdioIn.queue.drop (3 * n + 36) = q := by rw [drop_waitAnswers hq, drop_readAnswers]
  have hl := attempts_read (s := { s with tries := 0 }) (addrApndp addr) (addrSlot addr) v0 v par
    (Nat.le_of_lt_succ hn) hq
  simp only [lowAccess, (addrAligned_iff addr).mpr hlow, if_true, hl, finishAccess, clearFaultOnAbort_eq,
    trackSelect_eq]
  simp [afterRead, accessEvents, addrApndp, addrSlot, readOutcome, hrest, h.consistent.swclkLow, h.idle, beq_eq_decide]

/-- A write access answered WAIT `n` times and then OK (R141, R143, R144). -/
theorem lowAccess_write (ha : Addresses addr apndp a) {v : Word} (hn : n < Config.params.retryBound)
    (h : AnsweredBy (waitAnswers n ++ bitsOf (1 : BitVec 3) 3 ++ q) s) :
    lowAccess Config.params false addr v s = (.ok .nothing, afterWrite apndp a n v s) := by
  obtain ⟨hlow, rfl, rfl⟩ := ha
  have hq : s.swdioIn.queue = waitAnswers n ++ (bitsOf (1 : BitVec 3) 3 ++ q) := by rw [h.queue, List.append_assoc]
  have hrest : s.swdioIn.queue.drop (3 * n + 3) = q := by rw [drop_waitAnswers hq, drop_ack]
  have hl := attempts_write (s := { s with tries := 0 }) (addrApndp addr) (addrSlot addr) v (Nat.le_of_lt_succ hn) hq
  simp only [lowAccess, (addrAligned_iff addr).mpr hlow, if_true, hl, finishAccess, clearFaultOnAbort_eq,
    trackSelect_eq]
  simp [afterWrite, accessEvents, addrApndp, addrSlot, hrest, h.consistent.swclkLow, h.idle]

/-- `n` WAITs and then `ack` end an access without a data phase: `ack` is not OK, and WAIT only at the bound (R142). -/
structure EndsWithoutData (n : Nat) (ack : BitVec 3) : Prop where
  left : n < Config.params.retryBound
  notOk : ack ≠ 1
  bound : ack = 2 → n + 1 = Config.params.retryBound

/-- An access that ends without a data phase (60_exceptions.md section 2). -/
theorem lowAccess_ends (ha : Addresses addr apndp a) (v : Word) {ack : BitVec 3} (hack : EndsWithoutData n ack)
    (h : AnsweredBy (waitAnswers n ++ bitsOf ack 3 ++ q) s) :
    lowAccess Config.params rnw addr v s = (noDataOutcome ack, afterNoData apndp rnw a n ack s) := by
  obtain ⟨hlow, rfl, rfl⟩ := ha
  exact lowAccess_noData rnw v h.consistent h.idle hlow hack.left hack.notOk hack.bound h.queue

/-- After a read the next answers are those that follow. -/
theorem AnsweredBy.afterRead {v : Word} {par : Bool} (h : AnsweredBy (waitAnswers n ++ readAnswers v par ++ q) s)
    (apndp : Bool) (a : BitVec 2) (hn : n < Config.params.retryBound) :
    AnsweredBy q (afterRead apndp a n v par s) where
  consistent :=
    { h.consistent with
      oeFollowsDir := rfl, triesBounded := hn, triesLeft := fun hp => absurd (h.idle.symm.trans hp) (by simp)
      triesStarted := fun _ => Nat.le_add_left 1 n }
  idle := h.idle
  queue := (drop_waitAnswers (by rw [h.queue, List.append_assoc])).trans (drop_readAnswers v par q)

/-- After a write the next answers are those that follow. -/
theorem AnsweredBy.afterWrite (h : AnsweredBy (waitAnswers n ++ bitsOf (1 : BitVec 3) 3 ++ q) s)
    (apndp : Bool) (a : BitVec 2) (v : Word) (hn : n < Config.params.retryBound) :
    AnsweredBy q (afterWrite apndp a n v s) where
  consistent :=
    { h.consistent with
      oeFollowsDir := rfl, triesBounded := hn, triesLeft := fun hp => absurd (h.idle.symm.trans hp) (by simp)
      triesStarted := fun _ => Nat.le_add_left 1 n }
  idle := h.idle
  queue := (drop_waitAnswers (by rw [h.queue, List.append_assoc])).trans (drop_ack 1 q)

end

/-- A command at an idle block whose body is known. -/
theorem exec_of_body {i : Instr} {s : State} {r : CmdOutcome × State} (hi : i.format = .cmd) (hp : s.phase = .idle)
    (h : commandBody i s = r) : exec i s = .next (endCommand r) := by
  rw [exec_command_idle hi hp, h]

/-- Settles O46: the loop ends with the attempt answered OK. -/
theorem lowAccessReads : Obligations.LowAccessReads := by
  intro addr value n v par rest s hs hp ha hn hq
  exact exec_of_body rfl hp (lowAccess_read (addresses_self ha) value hn ⟨hs, hp, hq⟩)

/-- Settles O47: the loop ends with the attempt answered OK. -/
theorem lowAccessWrites : Obligations.LowAccessWrites := by
  intro addr v n rest s hs hp ha hn hq
  exact exec_of_body rfl hp (lowAccess_write (addresses_self ha) hn ⟨hs, hp, hq⟩)

/-- Settles O48: the last of the WAITs is the acknowledge that ends the access. -/
theorem lowAccessTimesOut : Obligations.LowAccessTimesOut := by
  intro rnw addr value rest s hs hp ha hq
  have hlast : EndsWithoutData (Config.params.retryBound - 1) 2 := ⟨Nat.lt_succ_self _, by decide, fun _ => rfl⟩
  have hq' : s.swdioIn.queue = waitAnswers (Config.params.retryBound - 1) ++ bitsOf (2 : BitVec 3) 3 ++ rest := by
    rw [hq, ← waitAnswers_succ]; rfl
  exact exec_of_body rfl hp (lowAccess_ends (addresses_self ha) value hlast ⟨hs, hp, hq'⟩)

/-- Settles O49: FAULT ends the access at once. -/
theorem lowAccessFaults : Obligations.LowAccessFaults := by
  intro rnw addr value n rest s hs hp ha hn hq
  have hfault : EndsWithoutData n 4 := ⟨hn, by decide, fun h => absurd h (by decide)⟩
  exact exec_of_body rfl hp (lowAccess_ends (addresses_self ha) value hfault ⟨hs, hp, hq⟩)

/-! ### An access with its bank step -/

/-- The body of `i` in `s` is an access behind a bank step: the access alone where the bank is tracked, and else after a
SELECT write of `w` (R145). -/
structure Banked (i : Instr) (s : State) (tracked : Prop) (w : Word) (rnw : Bool) (addr : BitVec 9) (v : Word) :
    Prop where
  elided : tracked → commandBody i s = lowAccess Config.params rnw addr v s
  stepped : ¬tracked →
    commandBody i s = andThenOk (writeSelect Config.params w s) (lowAccess Config.params rnw addr v)

theorem ensureSelectDp_tracked {s : State} {addr : Byte} (h : DpTracked s addr) :
    ensureSelectDp Config.params (addrBank addr) s = (.ok .nothing, s) := if_pos h

theorem ensureSelectAp_tracked {s : State} {apsel addr : Byte} (h : ApTracked s apsel addr) :
    ensureSelectAp Config.params apsel (addrBank addr) s = (.ok .nothing, s) := if_pos h

section
variable {i : Instr} {rnw : Bool} {addr9 : BitVec 9} {addr : Byte} {v : Word} {s : State}

theorem banked_of_dp (h : commandBody i s =
      andThenOk (ensureSelectDp Config.params (addrBank addr) s) (lowAccess Config.params rnw addr9 v)) :
    Banked i s (DpTracked s addr) (dpSelectWord s (addr.extractLsb' 4 4)) rnw addr9 v where
  elided ht := by rw [h, ensureSelectDp_tracked ht]; rfl
  stepped ht := by rw [h, addrBank, ensureSelectDp_write ht]

theorem banked_of_ap {apsel : Byte} (h : commandBody i s =
      andThenOk (ensureSelectAp Config.params apsel (addrBank addr) s) (lowAccess Config.params rnw addr9 v)) :
    Banked i s (ApTracked s apsel addr) (apSelectWord s apsel (addr.extractLsb' 4 4)) rnw addr9 v where
  elided ht := by rw [h, ensureSelectAp_tracked ht]; rfl
  stepped ht := by rw [h, addrBank, ensureSelectAp_write ht]

end

section
variable {addr : Byte} (ha : addr.extractLsb' 0 2 = 0) (s : State)
include ha

theorem dpRead_banked :
    Banked (.dpRead addr) s (DpTracked s addr) (dpSelectWord s (addr.extractLsb' 4 4)) true (fullAddr false addr) 0 :=
  banked_of_dp (if_pos ((addrAligned_iff addr).mpr ha))

theorem dpWrite_banked (v : Word) (hsel : addr.extractLsb' 2 2 ≠ 2) :
    Banked (.dpWrite addr v) s (DpTracked s addr) (dpSelectWord s (addr.extractLsb' 4 4)) false
      (fullAddr false addr) v :=
  banked_of_dp ((if_pos ((addrAligned_iff addr).mpr ha)).trans (if_neg hsel))

/-- A write to SELECT is its own bank step (R147). -/
theorem dpWrite_select (v : Word) (hsel : addr.extractLsb' 2 2 = 2) :
    commandBody (.dpWrite addr v) s = lowAccess Config.params false (fullAddr false addr) v s :=
  (if_pos ((addrAligned_iff addr).mpr ha)).trans (if_pos hsel)

theorem apRead_banked (apsel : Byte) :
    Banked (.apRead apsel addr) s (ApTracked s apsel addr) (apSelectWord s apsel (addr.extractLsb' 4 4)) true
      (fullAddr true addr) 0 :=
  banked_of_ap (if_pos ((addrAligned_iff addr).mpr ha))

theorem apWrite_banked (apsel : Byte) (v : Word) :
    Banked (.apWrite apsel addr v) s (ApTracked s apsel addr) (apSelectWord s apsel (addr.extractLsb' 4 4)) false
      (fullAddr true addr) v :=
  banked_of_ap (if_pos ((addrAligned_iff addr).mpr ha))

end

theorem noDataOutcome_ne_ok (ack : BitVec 3) (v : Value) : noDataOutcome ack ≠ .ok v := by
  unfold noDataOutcome
  split
  · simp
  · split <;> simp

/-- A first access that does not end Ok is the last (R150). -/
theorem andThenOk_of_not_ok {o : CmdOutcome} (h : ∀ v, o ≠ .ok v) (t : State) (next : State → CmdOutcome × State) :
    andThenOk (o, t) next = (o, t) := by
  rcases andThenOk_cases (o, t) next with ⟨e, -⟩ | ⟨-, v, hv⟩
  · exact e
  · exact absurd hv (h v)

section
variable {i : Instr} {s : State} {tracked : Prop} {w v : Word} {rnw : Bool} {addr : BitVec 9} {q : List Bool}

/-- With the SELECT write acknowledged OK the command ends with the access after it (R145). -/
theorem Banked.body_stepped (hb : Banked i s tracked w rnw addr v) (ht : ¬tracked) {m : Nat}
    (hm : m < Config.params.retryBound) (h : AnsweredBy (waitAnswers m ++ bitsOf (1 : BitVec 3) 3 ++ q) s) :
    commandBody i s = lowAccess Config.params rnw addr v (afterWrite false 2 m w s) := by
  have hw : writeSelect Config.params w s = (.ok .nothing, afterWrite false 2 m w s) :=
    lowAccess_write (addresses_slotAddr 2) hm h
  rw [hb.stepped ht, hw]; rfl

/-- With the SELECT write not acknowledged OK it ends there (R150). -/
theorem Banked.body_select_ends (hb : Banked i s tracked w rnw addr v) (ht : ¬tracked) {n : Nat} {ack : BitVec 3}
    (hack : EndsWithoutData n ack) (h : AnsweredBy (waitAnswers n ++ bitsOf ack 3 ++ q) s) :
    commandBody i s = (noDataOutcome ack, afterNoData false false 2 n ack s) := by
  have hw : writeSelect Config.params w s = (noDataOutcome ack, afterNoData false false 2 n ack s) :=
    lowAccess_ends (addresses_slotAddr 2) w hack h
  rw [hb.stepped ht, hw, andThenOk_of_not_ok (noDataOutcome_ne_ok ack)]

end

/-! ### The commands on DP and AP registers -/

/-- Settles O52: the bank step, and the read by its answers. -/
theorem dpReadReads : Obligations.DpReadReads := by
  intro addr m n v par rest s hs hp ha hm hn
  have hread {t : State} (h : AnsweredBy (waitAnswers n ++ readAnswers v par ++ rest) t) :=
    lowAccess_read (addresses_fullAddr false ha) 0 hn h
  have hb := dpRead_banked ha s
  refine ⟨fun hv hbank hq => exec_of_body rfl hp ?_, fun ht hq => exec_of_body rfl hp ?_⟩ <;>
    have h : AnsweredBy _ s := ⟨hs, hp, hq⟩
  · exact (hb.elided ⟨hv, hbank⟩).trans (hread h)
  · exact (hb.body_stepped ht hm h).trans (hread (h.afterWrite _ _ _ hm))

/-- Settles O53: a write to SELECT alone, and any other behind its bank step. -/
theorem dpWriteWrites : Obligations.DpWriteWrites := by
  intro addr m n v rest s hs hp ha hm hn
  have hwrite {t : State} (h : AnsweredBy (waitAnswers n ++ bitsOf (1 : BitVec 3) 3 ++ rest) t) :=
    lowAccess_write (v := v) (addresses_fullAddr false ha) hn h
  refine ⟨fun ht hq => exec_of_body rfl hp ?_, fun hsel ht hq => exec_of_body rfl hp ?_⟩ <;>
    have h : AnsweredBy _ s := ⟨hs, hp, hq⟩
  · by_cases hsel : addr.extractLsb' 2 2 = 2
    · exact (dpWrite_select ha s v hsel).trans (hwrite h)
    · exact ((dpWrite_banked ha s v hsel).elided (ht.resolve_left hsel)).trans (hwrite h)
  · exact ((dpWrite_banked ha s v hsel).body_stepped ht hm h).trans (hwrite (h.afterWrite _ _ _ hm))

/-- Settles O54: a write of slot 0, which is ABORT and not SELECT. -/
theorem dpAbortClearsFault : Obligations.DpAbortClearsFault := by
  intro v n rest s hs hp hn hq
  refine ⟨_, exec_of_body rfl hp (lowAccess_write (addresses_slotAddr 0) hn ⟨hs, hp, hq⟩), rfl, ?_⟩
  exact ⟨rfl, rfl, rfl, rfl, rfl, rfl⟩

/-- Settles O55: the bank step, and the read by its answers. -/
theorem apReadReads : Obligations.ApReadReads := by
  intro apsel addr m n v par rest s hs hp ha hm hn
  have hread {t : State} (h : AnsweredBy (waitAnswers n ++ readAnswers v par ++ rest) t) :=
    lowAccess_read (addresses_fullAddr true ha) 0 hn h
  have hb := apRead_banked ha s apsel
  refine ⟨fun hv hsel hbank hq => exec_of_body rfl hp ?_, fun ht hq => exec_of_body rfl hp ?_⟩ <;>
    have h : AnsweredBy _ s := ⟨hs, hp, hq⟩
  · exact (hb.elided ⟨hv, hsel, hbank⟩).trans (hread h)
  · exact (hb.body_stepped ht hm h).trans (hread (h.afterWrite _ _ _ hm))

/-- Settles O56: the bank step, and the write by its answers. -/
theorem apWriteWrites : Obligations.ApWriteWrites := by
  intro apsel addr m n v rest s hs hp ha hm hn
  have hwrite {t : State} (h : AnsweredBy (waitAnswers n ++ bitsOf (1 : BitVec 3) 3 ++ rest) t) :=
    lowAccess_write (v := v) (addresses_fullAddr true ha) hn h
  have hb := apWrite_banked ha s apsel v
  refine ⟨fun hv hsel hbank hq => exec_of_body rfl hp ?_, fun ht hq => exec_of_body rfl hp ?_⟩ <;>
    have h : AnsweredBy _ s := ⟨hs, hp, hq⟩
  · exact (hb.elided ⟨hv, hsel, hbank⟩).trans (hwrite h)
  · exact (hb.body_stepped ht hm h).trans (hwrite (h.afterWrite _ _ _ hm))

/-- Settles O57: of the accesses of a command the first that ends without a data phase ends the command. -/
theorem failedAccessEndsCommand : Obligations.FailedAccessEndsCommand := by
  intro apsel addr v m n ack rest s hs hp ha hm hn h1 h2
  have hack : EndsWithoutData n ack := ⟨hn, h1, h2⟩
  have hends (apndp rnw : Bool) (v : Word) {t : State} (h : AnsweredBy (waitAnswers n ++ bitsOf ack 3 ++ rest) t) :=
    lowAccess_ends (rnw := rnw) (addresses_fullAddr apndp ha) v hack h
  have hdpR := dpRead_banked ha s
  have hdpW := dpWrite_banked ha s v
  have hapR := apRead_banked ha s apsel
  have hapW := apWrite_banked ha s apsel v
  refine ⟨fun hq i hi => ?_, fun hq => ?_, fun hq => ?_⟩ <;> have h : AnsweredBy _ s := ⟨hs, hp, hq⟩
  · rcases hi with ⟨rfl | ⟨rfl, hsel⟩, ht⟩ | ⟨rfl | rfl, ht⟩ <;> refine exec_of_body rfl hp ?_
    · exact hdpR.body_select_ends ht hack h
    · exact (hdpW hsel).body_select_ends ht hack h
    · exact hapR.body_select_ends ht hack h
    · exact hapW.body_select_ends ht hack h
  · refine ⟨fun ht => ?_, fun ht => ?_, fun ht => ⟨?_, ?_⟩, ?_⟩ <;> refine exec_of_body rfl hp ?_
    · exact (hdpR.elided ht).trans (hends false true 0 h)
    · by_cases hsel : addr.extractLsb' 2 2 = 2
      · exact (dpWrite_select ha s v hsel).trans (hends false false v h)
      · exact ((hdpW hsel).elided (ht.resolve_left hsel)).trans (hends false false v h)
    · exact (hapR.elided ht).trans (hends true true 0 h)
    · exact (hapW.elided ht).trans (hends true false v h)
    · exact lowAccess_ends (addresses_slotAddr 0) v hack h
  · refine ⟨fun ht => ⟨?_, fun hsel => ?_⟩, fun ht => ⟨?_, ?_⟩⟩ <;> refine exec_of_body rfl hp ?_
    · exact (hdpR.body_stepped ht hm h).trans (hends false true 0 (h.afterWrite _ _ _ hm))
    · exact ((hdpW hsel).body_stepped ht hm h).trans (hends false false v (h.afterWrite _ _ _ hm))
    · exact (hapR.body_stepped ht hm h).trans (hends true true 0 (h.afterWrite _ _ _ hm))
    · exact (hapW.body_stepped ht hm h).trans (hends true false v (h.afterWrite _ _ _ hm))

/-! ### `dp_attach` -/

/-- What `dp_attach` does before its first access (R154). -/
def detached (s : State) : State := { s with fault := false, selValid := false, idcode := none, targetid := none }

/-- What it leaves after a good first read: `idcode` is loaded (R154). -/
def idcodeLoaded (n : Nat) (v : Word) (s : State) : State :=
  { afterRead false 0 n v (parity v) (detached s) with idcode := some v }

section
variable {s t u : State} {o : CmdOutcome} {v w : Word}

/-- A first read that does not end Ok ends the command (R150). -/
theorem dpAttach_idcode_fails (h : lowAccess Config.params true (slotAddr 0) 0 (detached s) = (o, t))
    (ho : ∀ x, o ≠ .ok x) : dpAttach Config.params s = (o, t) := by
  obtain ⟨r, hr, ⟨e, -⟩ | ⟨x, hx, -⟩⟩ := dpAttach_cases s <;> obtain rfl : r = (o, t) := hr.trans h
  · exact e
  · exact absurd hx (ho _)

variable (h : lowAccess Config.params true (slotAddr 0) 0 (detached s) = (.ok (.word v), t))
include h

/-- Without `DP_V2` a good first read is all (R154). -/
theorem dpAttach_idcode_only (hv : Config.params.open5.dpV2 = false) :
    dpAttach Config.params s = (.ok .nothing, { t with idcode := some v }) := by
  obtain ⟨r, hr, ⟨-, hne⟩ | ⟨x, hx, ⟨-, e⟩ | ⟨hv', -⟩⟩⟩ := dpAttach_cases s <;>
    obtain rfl : r = (.ok (.word v), t) := hr.trans h
  · exact absurd rfl (hne _)
  · cases hx; exact e
  · exact Bool.noConfusion (hv.symm.trans hv')

variable (hv : Config.params.open5.dpV2 = true)
include hv

/-- With `DP_V2` a read of TARGETID that does not end Ok ends the command (R150). -/
theorem dpAttach_targetid_fails (h2 : dpRead Config.params targetidAddr { t with idcode := some v } = (o, u))
    (ho : ∀ x, o ≠ .ok x) : dpAttach Config.params s = (o, u) := by
  obtain ⟨r, hr, ⟨-, hne⟩ | ⟨x, hx, ⟨hv', -⟩ | ⟨-, r2, hr2, h'⟩⟩⟩ := dpAttach_cases s <;>
    obtain rfl : r = (.ok (.word v), t) := hr.trans h
  · exact absurd rfl (hne _)
  · exact Bool.noConfusion (hv'.symm.trans hv)
  · cases hx
    obtain rfl : r2 = (o, u) := hr2.trans h2
    obtain ⟨e, -⟩ | ⟨y, hy, -⟩ := h'
    · exact e
    · exact absurd hy (ho _)

/-- With `DP_V2` a good read of TARGETID loads `targetid` (R154). -/
theorem dpAttach_targetid_loads
    (h2 : dpRead Config.params targetidAddr { t with idcode := some v } = (.ok (.word w), u)) :
    dpAttach Config.params s = (.ok .nothing, { u with targetid := some w }) := by
  obtain ⟨r, hr, ⟨-, hne⟩ | ⟨x, hx, ⟨hv', -⟩ | ⟨-, r2, hr2, h'⟩⟩⟩ := dpAttach_cases s <;>
    obtain rfl : r = (.ok (.word v), t) := hr.trans h
  · exact absurd rfl (hne _)
  · exact Bool.noConfusion (hv'.symm.trans hv)
  · cases hx
    obtain rfl : r2 = (.ok (.word w), u) := hr2.trans h2
    obtain ⟨-, hne⟩ | ⟨y, hy, e⟩ := h'
    · exact absurd rfl (hne _)
    · cases hy; exact e

end

theorem AnsweredBy.detached {q : List Bool} {s : State} (h : AnsweredBy q s) : AnsweredBy q (detached s) where
  consistent := { h.consistent with targetidNeedsIdcode := fun hn => Bool.noConfusion hn }
  idle := h.idle
  queue := h.queue

theorem AnsweredBy.idcodeLoaded {n : Nat} {v : Word} {q : List Bool} {s : State}
    (h : AnsweredBy (waitAnswers n ++ readAnswers v (parity v) ++ q) s) (hn : n < Config.params.retryBound) :
    AnsweredBy q (idcodeLoaded n v s) :=
  have hr := h.detached.afterRead false 0 hn
  { consistent := { hr.consistent with targetidNeedsIdcode := fun hn => Bool.noConfusion hn }
    idle := hr.idle
    queue := hr.queue }

theorem readOutcome_of_right_parity (v : Word) : readOutcome v (parity v) = .ok (.word v) := if_pos rfl

theorem readOutcome_of_wrong_parity {v : Word} {par : Bool} (h : par ≠ parity v) :
    readOutcome v par = .parityError v := if_neg h

/-- The first read of `dp_attach`, answered OK with the right parity. -/
theorem detached_read {n : Nat} {v : Word} {q : List Bool} {s : State} (hn : n < Config.params.retryBound)
    (h : AnsweredBy (waitAnswers n ++ readAnswers v (parity v) ++ q) s) :
    lowAccess Config.params true (slotAddr 0) 0 (detached s)
      = (.ok (.word v), afterRead false 0 n v (parity v) (detached s)) :=
  readOutcome_of_right_parity v ▸ lowAccess_read (addresses_slotAddr 0) 0 hn h.detached

/-- TARGETID is address 0x4 of bank 2 (GK16). -/
theorem addresses_targetid : Addresses (fullAddr false targetidAddr) false 1 := ⟨by decide, by decide, by decide⟩

/-- Its read, where nothing is tracked: a SELECT write of 0x00000002 goes in front (R145, R154). -/
theorem targetid_banked (n : Nat) (v : Word) (s : State) :
    Banked (.dpRead targetidAddr) (idcodeLoaded n v s) False 0x00000002 true (fullAddr false targetidAddr) 0 where
  elided := False.elim
  stepped _ := (dpRead_banked (addr := targetidAddr) (by decide) (idcodeLoaded n v s)).stepped fun ht =>
    Bool.noConfusion ht.1

/-- Settles O58: the reads of `dp_attach` by their answers. -/
theorem dpAttachLoads : Obligations.DpAttachLoads := by
  intro n v rest s hs hp hn hq
  have h : AnsweredBy _ s := ⟨hs, hp, hq⟩
  have hid := detached_read hn h
  refine ⟨fun hv => exec_of_body rfl hp (dpAttach_idcode_only hid hv), fun hv m k w rest' hm hk hrest => ?_⟩
  subst hrest
  have h1 := h.idcodeLoaded hn
  refine exec_of_body rfl hp (dpAttach_targetid_loads hid hv (w := w) ?_)
  rw [← readOutcome_of_right_parity w]
  exact ((targetid_banked n v s).body_stepped id hm h1).trans
    (lowAccess_read addresses_targetid 0 hk (h1.afterWrite _ _ _ hm))

/-- Settles O59: each access of `dp_attach` by its answers, up to the one that fails. -/
theorem failedAttachLeavesNoValue : Obligations.FailedAttachLeavesNoValue := by
  intro n rest s hs hp hn
  refine ⟨fun ack ha1 ha2 hq => ?_, fun v par hpar hq => ?_, fun hv v m hm hq => ⟨fun ack rest' ha1 ha2 hrest => ?_,
    fun k hk => ⟨fun ack rest' ha1 ha2 hrest => ?_, fun w par rest' hpar hrest => ?_⟩⟩⟩ <;>
    refine exec_of_body rfl hp ?_ <;> have h : AnsweredBy _ s := ⟨hs, hp, hq⟩
  · exact dpAttach_idcode_fails (lowAccess_ends (addresses_slotAddr 0) 0 ⟨hn, ha1, ha2⟩ h.detached)
      (noDataOutcome_ne_ok ack)
  · refine dpAttach_idcode_fails ?_ (by simp)
    rw [← readOutcome_of_wrong_parity hpar]
    exact lowAccess_read (addresses_slotAddr 0) 0 hn h.detached
  all_goals
    subst hrest
    have h1 := h.idcodeLoaded hn
  · exact dpAttach_targetid_fails (detached_read hn h) hv
      ((targetid_banked n v s).body_select_ends id ⟨hm, ha1, ha2⟩ h1) (noDataOutcome_ne_ok ack)
  · refine dpAttach_targetid_fails (detached_read hn h) hv ?_ (noDataOutcome_ne_ok ack)
    exact ((targetid_banked n v s).body_stepped id hm h1).trans
      (lowAccess_ends addresses_targetid 0 ⟨hk, ha1, ha2⟩ (h1.afterWrite _ _ _ hm))
  · refine dpAttach_targetid_fails (detached_read hn h) hv ?_ (by simp)
    rw [← readOutcome_of_wrong_parity hpar]
    exact ((targetid_banked n v s).body_stepped id hm h1).trans
      (lowAccess_read addresses_targetid 0 hk (h1.afterWrite _ _ _ hm))

end Sys2Proof.Machine
end

section
/-! PROOFS. The family 43_dp_sequencer.md, third part: how many SWCLK cycles a command can spend. -/

namespace Sys2Proof.Machine
open Sys2Proof.Safety

/-! ### The cycles of an access -/

theorem turnCost_le_one (now wanted : Dir) : turnCost now wanted ≤ 1 := by
  unfold turnCost
  split <;> omega

/-- A turnaround, if any, and eight bits (R127). -/
theorem requestEvents_swclk_le (n : Word) (now : Dir) (r : Byte) :
    swclkCycles (requestEvents (delayEvents n) now r) ≤ 9 := by
  have hd := delayEvents_swclk n
  have ht := turnCost_le_one now .drive
  simp only [requestEvents, swclkCycles_append, turnEvents_swclk _ _ hd, outCycles_swclk _ hd, bitsOf_length]
  omega

/-- A turnaround and three bits (R127). -/
theorem ackEvents_swclk (n : Word) (ack : BitVec 3) : swclkCycles (ackEvents (delayEvents n) ack) = 4 := by
  simp only [ackEvents, swclkCycles_append, turnEvents_swclk _ _ (delayEvents_swclk n), inCycles_swclk, bitsOf_length]
  rfl

/-- A turnaround and 33 bits (R127). -/
theorem writeEvents_swclk (n : Word) (v : Word) : swclkCycles (writeEvents (delayEvents n) v) = 34 := by
  have hd := delayEvents_swclk n
  simp only [writeEvents, swclkCycles_append, turnEvents_swclk _ _ hd, outCycles_swclk _ hd, List.length_append,
    bitsOf_length]
  rfl

/-- 33 bits and a turnaround (R127). -/
theorem readEvents_swclk (n : Word) (v : Word) (par : Bool) : swclkCycles (readEvents (delayEvents n) v par) = 34 := by
  simp only [readEvents, swclkCycles_append, turnEvents_swclk _ _ (delayEvents_swclk n), inCycles_swclk,
    List.length_append, bitsOf_length]
  rfl

theorem waitEvents_swclk_le (n : Word) (r : Byte) (k : Nat) (now : Dir) :
    swclkCycles (waitEvents (delayEvents n) r k now) ≤ 13 * k := by
  induction k generalizing now with
  | zero => exact Nat.le_refl 0
  | succ k ih =>
    have hr := requestEvents_swclk_le n now r
    have hw := ih .float
    simp only [waitEvents, swclkCycles_append, ackEvents_swclk]
    omega

/-- Each transmission but the last spends at most 13 cycles, and the last as many before its data phase. -/
theorem accessEvents_swclk_le (s : State) (r : Byte) (k : Nat) (ack : BitVec 3) :
    swclkCycles (accessEvents s r k ack) ≤ 13 * (k + 1) := by
  have hw := waitEvents_swclk_le s.delayCount r k s.swdDir
  have hr := requestEvents_swclk_le s.delayCount (waitDir k s.swdDir) r
  simp only [accessEvents, swclkCycles_append, ackEvents_swclk]
  omega

/-! ### The cycles of a command -/

/-- Between `s` and `t` there are at most `k` accesses' cycles, each access of at most `RETRY_BOUND` transmissions of at
most 47 (R156). -/
def AccessCycles (k : Nat) (s t : State) : Prop :=
  swclkCycles t.trace ≤ swclkCycles s.trace + k * (47 * Config.params.retryBound)

theorem AccessCycles.refl (k : Nat) (s : State) : AccessCycles k s s := Nat.le_add_right _ _

theorem AccessCycles.trans {j k : Nat} {s t u : State} (h : AccessCycles j s t) (h' : AccessCycles k t u) :
    AccessCycles (j + k) s u := by
  unfold AccessCycles at *
  rw [Nat.add_mul]
  omega

theorem AccessCycles.mono {j k : Nat} {s t : State} (h : AccessCycles j s t) (hjk : j ≤ k) : AccessCycles k s t :=
  Nat.le_trans h (Nat.add_le_add_left (Nat.mul_le_mul_right _ hjk) _)

theorem AccessCycles.swclkSpent_le {k : Nat} {s t : State} (h : AccessCycles k s t) :
    swclkSpent s t ≤ k * (47 * Config.params.retryBound) := Nat.sub_le_iff_le_add'.mpr h

theorem lowAccess_accessCycles (rnw : Bool) (addr : BitVec 9) (v : Word) (s : State) :
    AccessCycles 1 s (lowAccess Config.params rnw addr v s).2 := by
  rcases lowAccess_cases rnw addr v s with ⟨-, h⟩ | ⟨-, n, pin, hn, hends⟩
  · rw [h]; exact .refl 1 s
  have hle (r : Byte) (ack : BitVec 3) := accessEvents_swclk_le s r n ack
  unfold AccessCycles
  rcases hends with ⟨ack, -, -, h⟩ | ⟨-, w, par, h⟩ | ⟨-, h⟩ <;> rw [h]
  · have hk := hle (requestByte (addrApndp addr) rnw (addrSlot addr)) ack
    simp only [afterNoData, swclkCycles_append]
    omega
  · have hk := hle (requestByte (addrApndp addr) true (addrSlot addr)) 1
    simp only [afterRead, swclkCycles_append, readEvents_swclk]
    omega
  · have hk := hle (requestByte (addrApndp addr) false (addrSlot addr)) 1
    simp only [afterWrite, swclkCycles_append, writeEvents_swclk]
    omega

theorem ensureSelectDp_accessCycles (bank : BitVec 4) (s : State) :
    AccessCycles 1 s (ensureSelectDp Config.params bank s).2 := by
  unfold ensureSelectDp
  split
  · exact .refl 1 s
  · exact lowAccess_accessCycles _ _ _ s

theorem ensureSelectAp_accessCycles (apsel : BitVec 8) (bank : BitVec 4) (s : State) :
    AccessCycles 1 s (ensureSelectAp Config.params apsel bank s).2 := by
  unfold ensureSelectAp
  split
  · exact .refl 1 s
  · exact lowAccess_accessCycles _ _ _ s

/-- A bank step and an access after it (R150). -/
theorem AccessCycles.andThenOk {s : State} {r : CmdOutcome × State} {next : State → CmdOutcome × State}
    (h : AccessCycles 1 s r.2) (h' : AccessCycles 1 r.2 (next r.2).2) : AccessCycles 2 s (andThenOk r next).2 := by
  rcases andThenOk_cases r next with ⟨e, -⟩ | ⟨e, -⟩ <;> rw [e]
  · exact h.mono (by decide)
  · exact h.trans h'

theorem dpRead_accessCycles (addr : Byte) (s : State) : AccessCycles 2 s (dpRead Config.params addr s).2 := by
  unfold dpRead
  split
  · exact (ensureSelectDp_accessCycles _ s).andThenOk (lowAccess_accessCycles _ _ _ _)
  · exact .refl 2 s

theorem dpWrite_accessCycles (addr : Byte) (v : Word) (s : State) :
    AccessCycles 2 s (dpWrite Config.params addr v s).2 := by
  unfold dpWrite
  split
  · split
    · exact (lowAccess_accessCycles _ _ _ s).mono (by decide)
    · exact (ensureSelectDp_accessCycles _ s).andThenOk (lowAccess_accessCycles _ _ _ _)
  · exact .refl 2 s

theorem apRead_accessCycles (apsel addr : Byte) (s : State) :
    AccessCycles 2 s (apRead Config.params apsel addr s).2 := by
  unfold apRead
  split
  · exact (ensureSelectAp_accessCycles _ _ s).andThenOk (lowAccess_accessCycles _ _ _ _)
  · exact .refl 2 s

theorem apWrite_accessCycles (apsel addr : Byte) (v : Word) (s : State) :
    AccessCycles 2 s (apWrite Config.params apsel addr v s).2 := by
  unfold apWrite
  split
  · exact (ensureSelectAp_accessCycles _ _ s).andThenOk (lowAccess_accessCycles _ _ _ _)
  · exact .refl 2 s

/-- The read of address 0, and `dp_read` of TARGETID (R154). -/
theorem dpAttach_accessCycles (s : State) : AccessCycles 3 s (dpAttach Config.params s).2 := by
  obtain ⟨r, hr, h⟩ := dpAttach_cases s
  have h1 : AccessCycles 1 s r.2 := hr ▸ lowAccess_accessCycles true (slotAddr 0) 0 _
  rcases h with ⟨e, -⟩ | ⟨v, -, ⟨-, e⟩ | ⟨-, r2, hr2, h2⟩⟩
  · rw [e]; exact h1.mono (by decide)
  · rw [e]; exact h1.mono (by decide)
  · have h3 : AccessCycles 3 s r2.2 := h1.trans (hr2 ▸ dpRead_accessCycles targetidAddr { r.2 with idcode := some v })
    rcases h2 with ⟨e, -⟩ | ⟨w, -, e⟩ <;> rw [e] <;> exact h3

/-- The outcome of a command is no event. -/
theorem swclkSpent_le_of_command {i : Instr} {s t : State} {k : Nat} (h : exec i s = .next t) (hi : i.format = .cmd)
    (hb : AccessCycles k s (commandBody i s).2) : swclkSpent s t ≤ k * (47 * Config.params.retryBound) := by
  obtain ⟨-, rfl⟩ := exec_command_next hi h
  exact hb.swclkSpent_le

/-- Settles O19: each command makes as many accesses as R156 counts, or fewer. -/
theorem accessCyclesBounded : Obligations.AccessCyclesBounded := by
  intro s t _ rnw addr9 apsel addr v
  refine ⟨fun h => ?_, fun h => ?_, fun h => ?_⟩
  · rw [← Nat.one_mul (47 * _)]
    rcases h with h | h
    · exact swclkSpent_le_of_command h rfl (lowAccess_accessCycles rnw addr9 v s)
    · exact swclkSpent_le_of_command h rfl (lowAccess_accessCycles _ _ v s)
  · rcases h with h | h | h | h
    · exact swclkSpent_le_of_command h rfl (dpRead_accessCycles addr s)
    · exact swclkSpent_le_of_command h rfl (dpWrite_accessCycles addr v s)
    · exact swclkSpent_le_of_command h rfl (apRead_accessCycles apsel addr s)
    · exact swclkSpent_le_of_command h rfl (apWrite_accessCycles apsel addr v s)
  · exact swclkSpent_le_of_command h rfl (dpAttach_accessCycles s)

end Sys2Proof.Machine
end

section
/-! PROOFS. The family 43_dp_sequencer.md, fourth part: the phase table, run step by step, makes the access. -/

namespace Sys2Proof.Machine
open Sys2Proof.Safety

/-! ### The rows of the phase table as steps -/

theorem exec_requestInstr (apndp rnw : Bool) (a : BitVec 2) (s : State) :
    exec (requestInstr apndp rnw a) s = .next (requestStep apndp rnw a s) := by
  have ha : a = 0 ∨ a = 1 ∨ a = 2 ∨ a = 3 := by revert a; decide
  cases apndp <;> cases rnw <;> rcases ha with rfl | rfl | rfl | rfl <;> rfl

theorem exec_ackInstr (v : BitVec 3) (s : State) : exec (ackInstr v) s = .next (ackStep v s) := by
  have hv : v = 0 ∨ v = 1 ∨ v = 2 ∨ v = 3 ∨ v = 4 ∨ v = 5 ∨ v = 6 ∨ v = 7 := by revert v; decide
  rcases hv with rfl | rfl | rfl | rfl | rfl | rfl | rfl | rfl <;> rfl

theorem exec_dataW (v : Word) (s : State) : exec (.dataW v) s = .next (dataWStep v s) := rfl

theorem exec_dataR (v : Word) (par : Bool) (s : State) : exec (.dataR v par) s = .next (dataRStep v par s) := rfl

/-- The target answers what it was about to answer. -/
theorem receiveAck_present_draw (s : State) :
    receiveAck (presentSwdio (s.swdioIn.draw Config.freeSwdioLevel 3).1
      { s with swdioIn := (s.swdioIn.draw Config.freeSwdioLevel 3).2 }) = receiveAck s := by
  simp only [receiveAck_eq, presentSwdio, InputPin.draw_present]

theorem readDataPhase_present_draw (s : State) :
    readDataPhase (presentSwdio (s.swdioIn.draw Config.freeSwdioLevel 33).1
      { s with swdioIn := (s.swdioIn.draw Config.freeSwdioLevel 33).2 }) = readDataPhase s := by
  have h := InputPin.draw_present Config.freeSwdioLevel 33 s.swdioIn
  generalize hp : (⟨(s.swdioIn.draw Config.freeSwdioLevel 33).1 ++ (s.swdioIn.draw Config.freeSwdioLevel 33).2.queue,
    (s.swdioIn.draw Config.freeSwdioLevel 33).2.drawn⟩ : InputPin) = p at h
  rw [InputPin.draw_succ, InputPin.draw_succ _ _ s.swdioIn, Prod.mk.injEq] at h
  obtain ⟨hbits, hnext⟩ := h
  obtain ⟨hword, hpar⟩ := List.append_inj hbits (by simp)
  have hpar : p.draw Config.freeSwdioLevel 32 |>.2.level Config.freeSwdioLevel = _ := List.singleton_inj.mp hpar
  simp only [readDataPhase_eq, presentSwdio, hp, hword, hpar, hnext]

section
variable {s : State} (hport : s.port = [])
include hport

theorem step_of_fetchPhase_run {i : Instr} {t : State} (h : fetchPhase s = .run i t) : step s = exec i t := by
  simp only [step, fetch, hport, h]

/-- Row S_REQ. -/
theorem step_req {apndp rnw : Bool} {a : BitVec 2} (hp : s.phase = .req) (hr : s.req = requestByte apndp rnw a) :
    step s = .next (leaveReq (sendRequest Config.params apndp rnw a s)) := by
  have hf : fetchPhase s = .run (requestInstr (reqApndp s.req) (reqRnw s.req) (reqSlot s.req)) s := by
    simp only [fetchPhase, hp]
  rw [step_of_fetchPhase_run hport hf, hr, requestByte_apndp, requestByte_rnw, requestByte_slot, exec_requestInstr,
    requestStep, if_pos hp]

/-- Row S_ACK. -/
theorem step_ack (hp : s.phase = .ack) : step s = .next (leaveAck Config.params (receiveAck s)) := by
  have hf : fetchPhase s = .run (ackInstr (wordOfBits 3 (s.swdioIn.draw Config.freeSwdioLevel 3).1))
      { s with swdioIn := (s.swdioIn.draw Config.freeSwdioLevel 3).2 } := by
    unfold fetchPhase; rw [hp]
  have hbits := bitsOf_wordOfBits (w := 3) (InputPin.draw_length Config.freeSwdioLevel 3 s.swdioIn) (Nat.le_refl 3)
  rw [step_of_fetchPhase_run hport hf, exec_ackInstr, ackStep, if_pos hp, hbits, receiveAck_present_draw]

/-- Row S_WDATA. -/
theorem step_wdata (hp : s.phase = .wdata) : step s = .next (leaveData (writeDataPhase s.wdata s)) := by
  have hf : fetchPhase s = .run (.dataW s.wdata) s := by simp only [fetchPhase, hp]
  rw [step_of_fetchPhase_run hport hf, exec_dataW, dataWStep, if_pos hp]

/-- Row S_RDATA. -/
theorem step_rdata (hp : s.phase = .rdata) : step s = .next (leaveData (readDataPhase s)) := by
  have hd := InputPin.draw_succ Config.freeSwdioLevel 32 s.swdioIn
  have hlen := InputPin.draw_length Config.freeSwdioLevel 32 s.swdioIn
  have hbits := bitsOf_wordOfBits (w := 32) hlen (Nat.le_refl 32)
  have hall : bitsOf (wordOfBits 32 ((s.swdioIn.draw Config.freeSwdioLevel 33).1.take 32)) 32
      ++ [(s.swdioIn.draw Config.freeSwdioLevel 33).1.getD 32 false] = (s.swdioIn.draw Config.freeSwdioLevel 33).1 := by
    rw [hd, List.take_left' hlen, hbits]
    simp [hlen]
  have hf : fetchPhase s = .run (.dataR (wordOfBits 32 ((s.swdioIn.draw Config.freeSwdioLevel 33).1.take 32))
        ((s.swdioIn.draw Config.freeSwdioLevel 33).1.getD 32 false))
      { s with swdioIn := (s.swdioIn.draw Config.freeSwdioLevel 33).2 } := by
    unfold fetchPhase; rw [hp]
  rw [step_of_fetchPhase_run hport hf, exec_dataR, dataRStep, if_pos hp, hall, readDataPhase_present_draw]

/-- Row S_DONE. -/
theorem step_done (hp : s.phase = .done) : step s = .next (doneStep Config.params s) := by
  simp only [step, fetch, hport, fetchPhase, hp]

end

/-! ### Runs -/

theorem coreRun_succ {M : Host.Core} {s t : M.State} (h : M.step s = .next t) (k : Nat) :
    M.run (k + 1) s = M.run k t := by
  rw [Host.Core.run, h]

/-- `k` steps of the block. -/
def runSteps (k : Nat) (s : State) : Host.Outcome State Fault Refusal := Sys2Proof.core.run k s

theorem runSteps_succ {s t : State} (h : step s = .next t) (k : Nat) : runSteps (k + 1) s = runSteps k t :=
  coreRun_succ (M := Sys2Proof.core) h k

theorem runSteps_idle {s : State} (hport : s.port = []) (hp : s.phase = .idle) (k : Nat) : runSteps k s = .next s := by
  induction k with
  | zero => rfl
  | succ k ih => rw [runSteps_succ (step_idle_of_no_packet hport hp), ih]

/-- The end of an access leaves the block idle and the port alone. -/
theorem finishAccess_phase_port (apndp rnw : Bool) (a : BitVec 2) (v : Word) (c : AckClass) (s : State) :
    (finishAccess Config.params apndp rnw a v c s).2.phase = .idle
      ∧ (finishAccess Config.params apndp rnw a v c s).2.port = s.port := by
  cases c with
  | ok => simp only [finishAccess, clearFaultOnAbort_eq, trackSelect_eq]; exact ⟨trivial, trivial⟩
  | wait | fault | invalid => simp only [finishAccess, untrackSelect_eq]; exact ⟨trivial, trivial⟩

/-- On a read the operand is ignored. -/
theorem finishAccess_read (apndp : Bool) (a : BitVec 2) (v w : Word) (c : AckClass) (s : State) :
    finishAccess Config.params apndp true a v c s = finishAccess Config.params apndp true a w c s := by
  cases c with
  | ok => simp [finishAccess, trackSelect_eq]
  | wait | fault | invalid => rfl

/-- The registers from which the rows of an access read what it is (log 24). -/
structure Holds (apndp rnw : Bool) (a : BitVec 2) (v : Word) (s : State) : Prop where
  port : s.port = []
  req : s.req = requestByte apndp rnw a
  wdata : rnw = false → s.wdata = v

section
variable {apndp rnw : Bool} {a : BitVec 2} {v : Word} {s : State}

/-- From S_DONE one step ends the access, and the block then stays. -/
theorem runSteps_done (h : Holds apndp rnw a v s) (hp : s.phase = .done) (k : Nat) :
    runSteps (k + 1) s
      = .next (endCommand (finishAccess Config.params apndp rnw a v (decodeAck Config.params s.ack) s)) := by
  have hd : doneStep Config.params s
      = endCommand (finishAccess Config.params apndp rnw a v (decodeAck Config.params s.ack) s) := by
    rw [doneStep, h.req, requestByte_apndp, requestByte_rnw, requestByte_slot]
    cases rnw with
    | false => rw [h.wdata rfl]
    | true => rw [finishAccess_read apndp a s.wdata v]
  obtain ⟨hi, hpt⟩ := finishAccess_phase_port apndp rnw a v (decodeAck Config.params s.ack) s
  rw [runSteps_succ (step_done h.port hp), hd]
  exact runSteps_idle (s := endCommand _) (hpt.trans h.port) hi k

/-- From S_WDATA or S_RDATA the data phase and S_DONE end the access. -/
theorem runSteps_data (h : Holds apndp rnw a v s) (hp : s.phase = if rnw then .rdata else .wdata)
    (hack : decodeAck Config.params s.ack = .ok) (k : Nat) :
    runSteps (k + 2) s
      = .next (endCommand (finishAccess Config.params apndp rnw a v .ok
          { dataPhase rnw v s with phase := .done })) := by
  cases rnw with
  | false =>
    rw [runSteps_succ (step_wdata h.port hp), h.wdata rfl]
    have hd : Holds apndp false a v (leaveData (writeDataPhase v s)) := by
      rw [writeDataPhase_eq]; exact ⟨h.port, h.req, fun _ => rfl⟩
    rw [runSteps_done hd rfl, leaveData_ack, show (writeDataPhase v s).ack = s.ack by rw [writeDataPhase_eq], hack]
    rfl
  | true =>
    rw [runSteps_succ (step_rdata h.port hp)]
    have hd : Holds apndp true a v (leaveData (readDataPhase s)) := by
      rw [readDataPhase_eq]; exact ⟨h.port, h.req, fun h => Bool.noConfusion h⟩
    rw [runSteps_done hd rfl, leaveData_ack, show (readDataPhase s).ack = s.ack by rw [readDataPhase_eq], hack]
    rfl

end

/-! ### One attempt -/

/-- The request of an attempt sent and its acknowledge received, in S_ACK. -/
def acknowledged (apndp rnw : Bool) (a : BitVec 2) (s : State) : State :=
  receiveAck (leaveReq (sendRequest Config.params apndp rnw a s))

theorem acknowledged_tries (apndp rnw : Bool) (a : BitVec 2) (s : State) :
    (acknowledged apndp rnw a s).tries = s.tries + 1 := by
  rw [acknowledged, sendRequest_eq, receiveAck_eq]; rfl

theorem Holds.acknowledged {apndp rnw : Bool} {a : BitVec 2} {v : Word} {s : State} (h : Holds apndp rnw a v s) :
    Holds apndp rnw a v (acknowledged apndp rnw a s) := by
  rw [Machine.acknowledged, sendRequest_eq, receiveAck_eq]
  exact ⟨h.port, rfl, h.wdata⟩

theorem dataPhase_phase (rnw : Bool) (v : Word) (ph : Phase) (s : State) :
    dataPhase rnw v { s with phase := ph } = { dataPhase rnw v s with phase := ph } := by
  cases rnw
  · simp only [dataPhase, writeDataPhase_eq]; rfl
  · simp only [dataPhase, readDataPhase_eq]; rfl

/-- An attempt of the loop is the same request and acknowledge, and after OK the data phase, all in one phase (R126). -/
theorem attempt_eq_acknowledged (apndp rnw : Bool) (a : BitVec 2) (v : Word) (s : State) :
    attempt Config.params apndp rnw a v s =
      (decodeAck Config.params (acknowledged apndp rnw a s).ack,
        { (if decodeAck Config.params (acknowledged apndp rnw a s).ack = .ok
            then dataPhase rnw v (acknowledged apndp rnw a s)
            else acknowledged apndp rnw a s) with phase := .req }) := by
  have hc : receiveAck (sendRequest Config.params apndp rnw a { s with phase := .req, tries := s.tries + 1 })
      = { acknowledged apndp rnw a s with phase := .req } := by
    rw [acknowledged, sendRequest_eq, sendRequest_eq, receiveAck_eq, receiveAck_eq]; rfl
  rw [attempt, swdTransaction, hc, dataPhase_phase]
  split <;> rfl

section
variable {apndp rnw : Bool} {a : BitVec 2} {v : Word} {s : State}

/-- The rows S_REQ and S_ACK are two steps. -/
theorem runSteps_acknowledged (h : Holds apndp rnw a v s) (hp : s.phase = .req) (k : Nat) :
    runSteps (k + 2) s
      = runSteps k (leaveAck Config.params (acknowledged apndp rnw a s)) := by
  rw [runSteps_succ (step_req h.port hp h.req), runSteps_succ (step_ack (by rw [sendRequest_eq]; exact h.port) rfl)]
  rfl

/-- The attempt that ends the loop, from its acknowledge: at most two steps more. -/
theorem runSteps_last (h : Holds apndp rnw a v s)
    (hlast : (attempt Config.params apndp rnw a v s).1 ≠ .wait ∨ Config.params.retryBound ≤ s.tries + 1) (k : Nat) :
    runSteps (k + 2) (leaveAck Config.params (acknowledged apndp rnw a s))
      = .next (endCommand (finishAccess Config.params apndp rnw a v (attempt Config.params apndp rnw a v s).1
          { (attempt Config.params apndp rnw a v s).2 with phase := .done })) := by
  have hA := h.acknowledged
  have ht := acknowledged_tries apndp rnw a s
  rw [attempt_eq_acknowledged] at hlast ⊢
  generalize acknowledged apndp rnw a s = t at *
  have hdone (f : Bool) (hl : leaveAck Config.params t = { t with fault := f, phase := .done }) :
      runSteps (k + 2) (leaveAck Config.params t) = .next (endCommand (finishAccess Config.params apndp rnw a v
        (decodeAck Config.params t.ack) { t with fault := f, phase := .done })) := by
    rw [hl]
    exact runSteps_done (s := { t with fault := f, phase := .done }) ⟨hA.port, hA.req, hA.wdata⟩ rfl (k + 1)
  cases hc : decodeAck Config.params t.ack with
  | ok =>
    have hl : leaveAck Config.params t = { t with phase := if rnw then .rdata else .wdata } := by
      simp only [leaveAck, hc, hA.req, requestByte_rnw]
    have hd : Holds apndp rnw a v { t with phase := if rnw then .rdata else .wdata } := ⟨hA.port, hA.req, hA.wdata⟩
    rw [hl, runSteps_data hd rfl hc, dataPhase_phase]
    rfl
  | wait =>
    have hb : ¬t.tries < Config.params.retryBound := by
      rw [ht]; exact Nat.not_lt.mpr (hlast.resolve_left fun hne => hne hc)
    rw [hdone t.fault (by simp only [leaveAck, hc, if_neg hb]), hc]; rfl
  | fault =>
    rw [hdone true (by simp only [leaveAck, hc]), hc]
    simp only [finishAccess, untrackSelect_eq]; rfl
  | invalid =>
    rw [hdone t.fault (by simp only [leaveAck, hc]), hc]; rfl

theorem attempt_of_wait (hw : (attempt Config.params apndp rnw a v s).1 = .wait) :
    decodeAck Config.params (acknowledged apndp rnw a s).ack = .wait
      ∧ (attempt Config.params apndp rnw a v s).2 = { acknowledged apndp rnw a s with phase := .req } := by
  rw [attempt_eq_acknowledged] at hw ⊢
  have hw : decodeAck Config.params (acknowledged apndp rnw a s).ack = .wait := hw
  exact ⟨hw, by rw [hw]; rfl⟩

/-- After WAIT with a transmission left the machine is back in S_REQ, where the loop goes on. -/
theorem leaveAck_of_wait (hw : (attempt Config.params apndp rnw a v s).1 = .wait)
    (ht : s.tries + 1 < Config.params.retryBound) :
    leaveAck Config.params (acknowledged apndp rnw a s) = (attempt Config.params apndp rnw a v s).2 := by
  obtain ⟨hc, hnext⟩ := attempt_of_wait hw
  rw [hnext]
  simp only [leaveAck, hc, acknowledged_tries, if_pos ht]

end

/-! ### The loop -/

/-- From S_REQ with `more + 1` transmissions left the machine makes the loop and ends the access. -/
theorem runSteps_attempts {apndp rnw : Bool} {a : BitVec 2} {v : Word} {more : Nat} {s : State}
    (h : Holds apndp rnw a v s) (hp : s.phase = .req) (ht : s.tries + (more + 1) = Config.params.retryBound) :
    runSteps (2 * (more + 1) + 2) s
      = .next (endCommand (finishAccess Config.params apndp rnw a v (attempts Config.params apndp rnw a v more s).1
          { (attempts Config.params apndp rnw a v more s).2 with phase := .done })) := by
  induction more generalizing s with
  | zero =>
    rw [runSteps_acknowledged h hp, attempts]
    exact runSteps_last h (.inr ht.ge) 0
  | succ more ih =>
    rw [show 2 * (more + 1 + 1) + 2 = 2 * (more + 1) + 2 + 2 by omega, runSteps_acknowledged h hp]
    by_cases hw : (attempt Config.params apndp rnw a v s).1 = .wait
    · obtain ⟨-, hnext⟩ := attempt_of_wait hw
      have hA := h.acknowledged
      have htries := acknowledged_tries apndp rnw a s
      rw [leaveAck_of_wait hw (by omega), attempts]
      simp only [hw, if_true]
      rw [hnext]
      refine ih (s := { acknowledged apndp rnw a s with phase := .req }) ⟨hA.port, hA.req, hA.wdata⟩ rfl ?_
      show (acknowledged apndp rnw a s).tries + (more + 1) = Config.params.retryBound
      omega
    · rw [attempts_last rfl (.inl hw)]
      exact runSteps_last h (.inl hw) _

/-- Settles O18: an accepted access stands in S_REQ with all transmissions left. -/
theorem phaseMachineRefinesLowAccess : Obligations.PhaseMachineRefinesLowAccess := by
  intro rnw addr v s ha hport
  have h : Holds (addrApndp addr) rnw (addrSlot addr) v (acceptAccess Config.params rnw addr v s) :=
    ⟨hport, makeRequest_params _ _ _, fun hr => if_neg (by simp [hr])⟩
  have hlow : lowAccess Config.params rnw addr v (acceptAccess Config.params rnw addr v s) = _ :=
    if_pos ((addrAligned_iff addr).mpr ha)
  rw [hlow]
  exact runSteps_attempts h rfl (Nat.zero_add _)

end Sys2Proof.Machine
end

section
/-! PROOFS. The family 60_exceptions.md: which commands have a step, how a command ends, and what a refusal leaves. -/

namespace Sys2Proof.Machine
open Sys2Proof.Safety

/-! ### A block that is not idle -/

/-- Settles O9: a command is its body behind the test of the phase, which comes first. -/
theorem commandWhileBusyStuck : Obligations.CommandWhileBusyStuck := fun _ s hi hp =>
  (exec_command hi s).trans (runCommand_busy _ hp)

/-! ### The end of a command -/

/-- What a command's body can have changed: one family's part of the state, or the delay. -/
inductive BodyFrame (s t : State) : Prop
  | jtag (h : JtagOnly s t)
  | swd (h : SwdOnly s t)
  | attach (h : AttachOnly s t)
  | delay (n : Word) (h : t = { s with delayCount := n })

theorem commandBody_bodyFrame {i : Instr} (hi : i.format = .cmd) (s : State) : BodyFrame s (commandBody i s).2 := by
  cases i with
  | jtagReset => exact .jtag (jtagReset_jtagOnly _ s)
  | jtagNext tms tdi => exact .jtag (jtagNext_jtagOnly tms tdi s)
  | shiftTmsSequence bits count => exact .jtag (shiftTmsSequence_jtagOnly bits count s)
  | shiftData tdi count finalTms => exact .jtag (shiftData_jtagOnly _ tdi count finalTms s)
  | shiftDataDiscardOutput tdi count finalTms => exact .jtag (shiftDataDiscardOutput_jtagOnly _ tdi count finalTms s)
  | seqOut bits count => exact .swd (seqOut_swdOnly bits count s)
  | seqOutWithParity value count => exact .swd (seqOutWithParity_swdOnly value count s)
  | seqIn count => exact .swd (seqIn_swdOnly count s)
  | seqInWithParity count => exact .swd (seqInWithParity_swdOnly count s)
  | setDelay n => exact .delay n rfl
  | lowAccess rnw addr v => exact .attach (lowAccess_accessOnly rnw addr v s).attachOnly
  | dpRead addr => exact .attach (dpRead_accessOnly addr s).attachOnly
  | dpWrite addr v => exact .attach (dpWrite_accessOnly addr v s).attachOnly
  | dpAbort v => exact .attach (lowAccess_accessOnly false _ v s).attachOnly
  | apRead apsel addr => exact .attach (apRead_accessOnly apsel addr s).attachOnly
  | apWrite apsel addr v => exact .attach (apWrite_accessOnly apsel addr v s).attachOnly
  | dpAttach => exact .attach (dpAttach_attachOnly s)
  | faultRead => exact .attach rfl
  | idcodeRead => exact .attach (readRegister_accessOnly s.idcode s).attachOnly
  | targetidRead => exact .attach (readRegister_accessOnly s.targetid s).attachOnly
  | _ => cases hi

/-- The port is no command's: only a step takes a packet from it. -/
theorem BodyFrame.port {s t : State} (h : BodyFrame s t) : t.port = s.port := by
  cases h with
  | jtag h | swd h | attach h => exact (congrArg State.port h :)
  | delay n h => exact (congrArg State.port h :)

/-- Settles O10: an idle block runs the body, which keeps the port, adds events only and ends idle; its outcome is the one
handed over. -/
theorem commandsEnd : Obligations.CommandsEnd := by
  intro i s hi hp
  have hm := commandBody_trackMove hi s
  obtain ⟨tr, htr⟩ := hm.grows
  exact ⟨_, _, tr, exec_command_idle hi hp, hm.idle hp, (commandBody_bodyFrame hi s).port,
    endCommand_commandBody_outcomes hi rfl, htr.symm⟩

/-! ### What a refusal leaves -/

/-- The command did not end Refused. -/
def NotRefused (r : CmdOutcome × State) : Prop := ∀ why, r.1 ≠ .refused why

/-- A command that began in `s` has, if it ended Refused, left `s` as it was (R175). -/
def UnchangedIfRefused (s : State) (r : CmdOutcome × State) : Prop := ∀ why, r.1 = .refused why → r.2 = s

theorem notRefused_ok (v : Value) (s : State) : NotRefused (.ok v, s) := fun _ h => nomatch h

theorem NotRefused.unchangedIfRefused {r : CmdOutcome × State} (h : NotRefused r) (s : State) :
    UnchangedIfRefused s r := fun why hr => absurd hr (h why)

theorem unchangedIfRefused_self (o : CmdOutcome) (s : State) : UnchangedIfRefused s (o, s) := fun _ _ => rfl

/-- The shape of the counted commands: the count refused, or the loop run to its end (R87, R113). -/
theorem unchangedIfRefused_counted {c : Prop} [Decidable c] (why : Reason) (s : State) (v : Value) (t : State) :
    UnchangedIfRefused s (if c then (.refused why, s) else (.ok v, t)) := by
  split
  · exact unchangedIfRefused_self _ s
  · exact (notRefused_ok v t).unchangedIfRefused s

theorem noDataOutcome_ne_refused (ack : BitVec 3) (why : Reason) : noDataOutcome ack ≠ .refused why := by
  unfold noDataOutcome
  split
  · simp
  · split <;> simp

theorem readOutcome_ne_refused (v : Word) (par : Bool) (why : Reason) : readOutcome v par ≠ .refused why := by
  unfold readOutcome
  split <;> simp

/-- An access with an aligned address is made, and ends by what the target answers. -/
theorem lowAccess_notRefused {addr : BitVec 9} (ha : addrAligned addr = true) (rnw : Bool) (v : Word) (s : State) :
    NotRefused (lowAccess Config.params rnw addr v s) := by
  rcases lowAccess_cases rnw addr v s with ⟨hf, -⟩ | ⟨-, n, pin, -, ⟨ack, -, -, h⟩ | ⟨-, w, par, h⟩ | ⟨-, h⟩⟩
  · exact absurd ha (ne_true_of_eq_false hf)
  · rw [h]; exact noDataOutcome_ne_refused ack
  · rw [h]; exact readOutcome_ne_refused w par
  · rw [h]; exact notRefused_ok _ _

theorem addrAligned_slotAddr (a : BitVec 2) : addrAligned (slotAddr a) = true := (addrAligned_iff _).mpr (slotAddr_low a)

theorem addrAligned_fullAddr (apndp : Bool) {addr : Byte} (ha : addrAligned addr = true) :
    addrAligned (fullAddr apndp addr) = true :=
  (addrAligned_iff _).mpr ((fullAddr_low apndp addr).trans ((addrAligned_iff addr).mp ha))

theorem ensureSelectDp_notRefused (bank : BitVec 4) (s : State) :
    NotRefused (ensureSelectDp Config.params bank s) := by
  unfold ensureSelectDp
  split
  · exact notRefused_ok _ _
  · exact lowAccess_notRefused (addrAligned_slotAddr _) _ _ s

theorem ensureSelectAp_notRefused (apsel : BitVec 8) (bank : BitVec 4) (s : State) :
    NotRefused (ensureSelectAp Config.params apsel bank s) := by
  unfold ensureSelectAp
  split
  · exact notRefused_ok _ _
  · exact lowAccess_notRefused (addrAligned_slotAddr _) _ _ s

theorem NotRefused.andThenOk {r : CmdOutcome × State} {next : State → CmdOutcome × State} (h : NotRefused r)
    (h' : NotRefused (next r.2)) : NotRefused (andThenOk r next) := by
  rcases andThenOk_cases r next with ⟨e, -⟩ | ⟨e, -⟩ <;> rw [e]
  · exact h
  · exact h'

theorem dpRead_notRefused {addr : Byte} (ha : addrAligned addr = true) (s : State) :
    NotRefused (dpRead Config.params addr s) := by
  rw [dpRead, if_pos ha]
  exact (ensureSelectDp_notRefused _ s).andThenOk (lowAccess_notRefused (addrAligned_fullAddr false ha) _ _ _)

theorem dpWrite_notRefused {addr : Byte} (ha : addrAligned addr = true) (v : Word) (s : State) :
    NotRefused (dpWrite Config.params addr v s) := by
  have hfull := addrAligned_fullAddr false ha
  rw [dpWrite, if_pos ha]
  split
  · exact lowAccess_notRefused hfull _ _ s
  · exact (ensureSelectDp_notRefused _ s).andThenOk (lowAccess_notRefused hfull _ _ _)

theorem apRead_notRefused {addr : Byte} (ha : addrAligned addr = true) (apsel : Byte) (s : State) :
    NotRefused (apRead Config.params apsel addr s) := by
  rw [apRead, if_pos ha]
  exact (ensureSelectAp_notRefused _ _ s).andThenOk (lowAccess_notRefused (addrAligned_fullAddr true ha) _ _ _)

theorem apWrite_notRefused {addr : Byte} (ha : addrAligned addr = true) (apsel : Byte) (v : Word) (s : State) :
    NotRefused (apWrite Config.params apsel addr v s) := by
  rw [apWrite, if_pos ha]
  exact (ensureSelectAp_notRefused _ _ s).andThenOk (lowAccess_notRefused (addrAligned_fullAddr true ha) _ _ _)

/-- `dp_attach` clears registers before its first access, so it must never be refused; its two addresses are aligned. -/
theorem dpAttach_notRefused (s : State) : NotRefused (dpAttach Config.params s) := by
  obtain ⟨r, rfl, ⟨e, -⟩ | ⟨v, -, ⟨-, e⟩ | ⟨-, r2, rfl, ⟨e, -⟩ | ⟨w, -, e⟩⟩⟩⟩ := dpAttach_cases s <;> rw [e]
  · exact lowAccess_notRefused (addrAligned_slotAddr 0) _ _ _
  · exact notRefused_ok _ _
  · exact dpRead_notRefused (by decide) _
  · exact notRefused_ok _ _

/-- The shape of the commands with an address: made if it is aligned, refused if not (R46). -/
theorem unchangedIfRefused_of_aligned {w : Nat} {addr : BitVec w} {s : State} {r : CmdOutcome × State}
    (h : addrAligned addr = true → NotRefused r) (h' : addrAligned addr = false → r = (.refused .badAddress, s)) :
    UnchangedIfRefused s r := by
  cases ha : addrAligned addr with
  | true => exact (h ha).unchangedIfRefused s
  | false => rw [h' ha]; exact unchangedIfRefused_self _ s

theorem commandBody_unchangedIfRefused {i : Instr} (hi : i.format = .cmd) (s : State) :
    UnchangedIfRefused s (commandBody i s) := by
  cases i with
  | jtagReset | jtagNext | setDelay => exact (notRefused_ok _ _).unchangedIfRefused s
  | shiftTmsSequence | shiftData | shiftDataDiscardOutput | seqOut | seqOutWithParity | seqIn | seqInWithParity =>
    exact unchangedIfRefused_counted _ s _ _
  | lowAccess rnw addr v =>
    exact unchangedIfRefused_of_aligned (lowAccess_notRefused · rnw v s) (lowAccess_misaligned · rnw v s)
  | dpRead addr => exact unchangedIfRefused_of_aligned (dpRead_notRefused · s) (dpRead_misaligned · s)
  | dpWrite addr v => exact unchangedIfRefused_of_aligned (dpWrite_notRefused · v s) (dpWrite_misaligned · v s)
  | dpAbort v => exact (lowAccess_notRefused (addrAligned_slotAddr _) false v s).unchangedIfRefused s
  | apRead apsel addr =>
    exact unchangedIfRefused_of_aligned (apRead_notRefused · apsel s) (apRead_misaligned · apsel s)
  | apWrite apsel addr v =>
    exact unchangedIfRefused_of_aligned (apWrite_notRefused · apsel v s) (apWrite_misaligned · apsel v s)
  | dpAttach => exact (dpAttach_notRefused s).unchangedIfRefused s
  | faultRead => exact unchangedIfRefused_self _ s
  | idcodeRead => exact fun _ _ => readRegister_snd s.idcode s
  | targetidRead => exact fun _ _ => readRegister_snd s.targetid s
  | _ => cases hi

/-- What is no command hands over no outcome (log 2). -/
theorem WireMeaning.outcomes {f : Format} {op : State → State} (h : WireMeaning f op) (s : State) :
    (op s).outcomes = s.outcomes := by
  cases h with
  | request apndp rnw a => exact (requestStep_packetOnly apndp rnw a s).tracking_outcomes.2
  | ack v => exact (ackStep_packetOnly v s).tracking_outcomes.2
  | dataW data => exact (dataWStep_packetOnly data s).tracking_outcomes.2
  | dataR data par => exact (dataRStep_packetOnly data par s).tracking_outcomes.2
  | turn => exact (turnLine_swdOnly s).outcomes
  | tmsseq bits count => exact (clockTms_jtagOnly _ s).outcomes
  | shift tdi count finalTms => exact (clockData_jtagOnly _ _ s).outcomes

/-- Settles O11: a command that ends Refused tested its operands first and did nothing; what is no command hands over no
outcome. -/
theorem refusedChangesNothing : Obligations.RefusedChangesNothing := by
  intro i s t why h hout
  by_cases hc : i.format = .cmd
  · obtain ⟨-, rfl⟩ := exec_command_next hc h
    rw [endCommand_commandBody_outcomes hc rfl] at hout
    have ho : (commandBody i s).1 = .refused why := List.singleton_inj.mp (List.append_cancel_left hout)
    rw [endCommand, ho, commandBody_unchangedIfRefused hc s why ho]
  · obtain ⟨op, hop, he⟩ := exec_wire hc
    rw [he] at h; cases h
    rw [hop.outcomes s, List.self_eq_append_right] at hout
    exact absurd hout (List.cons_ne_nil _ _)

end Sys2Proof.Machine
end

section
/-! PROOFS. The family 70_reset_and_hazards.md: what reset leaves, and what every step keeps between commands and inside an
access. -/

namespace Sys2Proof.Machine
open Sys2Proof.Safety
open Relation

/-! ### Reset -/

/-- Settles O4: the state after reset is given field by field, and it is idle with nothing presented. -/
theorem resetLeaves : Obligations.ResetLeaves :=
  ⟨rfl, rfl, rfl, rfl, rfl, rfl, rfl, rfl, rfl, rfl, rfl, rfl, rfl, step_idle_of_no_packet rfl rfl⟩

theorem reset_consistent : Consistent State.reset where
  tckLow := rfl
  swclkLow := rfl
  oeFollowsDir := rfl
  trstReleased _ := rfl
  triesBounded := Nat.zero_le _
  triesLeft h := nomatch h
  triesStarted h := by simp [State.reset] at h
  targetidNeedsIdcode h := nomatch h

/-- Settles O5: at reset nothing is held that an access leaves, so no event has to be in the trace. -/
theorem resetIsConsistent : Obligations.ResetIsConsistent where
  left := reset_consistent
  right :=
    { consistent := reset_consistent
      idle := rfl
      noAccessYet := fun _ => ⟨rfl, rfl, rfl, fun _ h => nomatch h⟩
      idcodeRead := fun _ h => nomatch h
      targetidRead := fun _ h => nomatch h
      tracked := fun h => nomatch h
      faultAcknowledged := fun h => nomatch h }

/-! ### Operations that make no access -/

/-- What an operation that makes no access does at an idle block: it adds events, leaves what only accesses and steps change,
and keeps what R205 says of the pins. -/
structure Quiet (s t : State) : Prop where
  consistent : Consistent s → Consistent t
  grows : s.trace <+: t.trace
  control : SameControl s t
  tracking : SameTracking s t
  connection : SameConnection s t
  outcomes : t.outcomes = s.outcomes

theorem Quiet.refl (s : State) : Quiet s s := ⟨id, grows_refl s, ⟨rfl, rfl⟩, ⟨rfl, rfl, rfl, rfl⟩, ⟨rfl, rfl, rfl⟩, rfl⟩

/-- Taking a packet touches the port alone. -/
theorem quiet_port (s : State) (rest : List Packet) : Quiet s { s with port := rest } :=
  ⟨fun hs => { hs with }, grows_refl s, ⟨rfl, rfl⟩, ⟨rfl, rfl, rfl, rfl⟩, ⟨rfl, rfl, rfl⟩, rfl⟩

theorem quiet_delayCount (s : State) (n : Word) : Quiet s { s with delayCount := n } :=
  ⟨fun hs => { hs with }, grows_refl s, ⟨rfl, rfl⟩, ⟨rfl, rfl, rfl, rfl⟩, ⟨rfl, rfl, rfl⟩, rfl⟩

theorem JtagOnly.quiet {s t : State} (h : JtagOnly s t) (hg : s.trace <+: t.trace) (hc : Consistent s → Consistent t) :
    Quiet s t := by
  obtain ⟨-, -, hsel, hconn, hctl, -⟩ := h.frame
  exact ⟨hc, hg, hctl, hsel, hconn, h.outcomes⟩

theorem SwdOnly.quiet {s t : State} (h : SwdOnly s t) (hg : s.trace <+: t.trace) (hc : Consistent s → Consistent t) :
    Quiet s t := by
  obtain ⟨-, -, hsel, hconn, hctl, -⟩ := h.frame
  exact ⟨hc, hg, hctl, hsel, hconn, h.outcomes⟩

theorem PacketOnly.quiet {s t : State} (h : PacketOnly s t) (hg : s.trace <+: t.trace) (hc : Consistent s → Consistent t)
    (hctl : SameControl s t) (hf : t.fault = s.fault) : Quiet s t := by
  obtain ⟨hsel, ho⟩ := h.tracking_outcomes
  obtain ⟨hid, htid⟩ := h.accessOnly.idcode_targetid
  exact ⟨hc, hg, hctl, hsel, ⟨hf, hid, htid⟩, ho⟩

/-! #### The JTAG family -/

theorem clockTms_consistent (bs : List Bool) {s : State} (hs : Consistent s) : Consistent (clockTms bs s) := by
  rw [clockTms_eq]
  exact { hs with tckLow := by simp [hs.tckLow] }

theorem clockData_consistent (finalTms : Bool) (bs : List Bool) {s : State} (hs : Consistent s) :
    Consistent (clockData finalTms bs s).2 := by
  by_cases h : bs = []
  · subst h; exact hs
  · rw [clockData_eq _ _ _ h]
    exact { hs with tckLow := rfl }

theorem pulseTrst_consistent {s : State} (hs : Consistent s) : Consistent (pulseTrst Config.params s) := by
  rw [pulseTrst_eq]
  exact { hs with trstReleased := fun h => if_pos h }

theorem jtagReset_quiet (s : State) : Quiet s (jtagReset Config.params s).2 :=
  (jtagReset_jtagOnly _ s).quiet (jtagReset_grows _ s) fun hs => clockTms_consistent _ (pulseTrst_consistent hs)

theorem jtagNext_quiet (tms tdi : Bool) (s : State) : Quiet s (jtagNext tms tdi s).2 :=
  (jtagNext_jtagOnly tms tdi s).quiet (jtagNext_grows tms tdi s) fun hs => by
    rw [jtagNext_eq]
    exact { hs with tckLow := rfl }

theorem clockTms_quiet (bs : List Bool) (s : State) : Quiet s (clockTms bs s) :=
  (clockTms_jtagOnly bs s).quiet (clockTms_grows bs s) (clockTms_consistent bs)

theorem clockData_quiet (finalTms : Bool) (bs : List Bool) (s : State) : Quiet s (clockData finalTms bs s).2 :=
  (clockData_jtagOnly finalTms bs s).quiet (clockData_grows finalTms bs s) (clockData_consistent finalTms bs)

/-! #### The SWD line -/

theorem swclk_ite_low {s : State} (hs : Consistent s) (p : Prop) [Decidable p] :
    (if p then s.swclk else false) = false := (swclk_low hs p).trans hs.swclkLow

theorem turnaround_consistent (dir : Dir) {s : State} (hs : Consistent s) : Consistent (turnaround dir s) := by
  rw [turnaround_eq]
  exact { hs with swclkLow := swclk_ite_low hs _, oeFollowsDir := swdioOe_turned hs dir }

theorem sendBits_consistent (bits : Word) (count : Nat) {s : State} (hs : Consistent s) :
    Consistent (sendBits bits count s) := by
  rw [sendBits_eq]
  exact { hs with swclkLow := swclk_ite_low hs _, oeFollowsDir := swdioOe_driven hs }

theorem sendBitsParity_consistent (value : Word) (count : Nat) {s : State} (hs : Consistent s) :
    Consistent (sendBitsParity value count s) := by
  rw [sendBitsParity_eq]
  exact { hs with swclkLow := rfl, oeFollowsDir := swdioOe_driven hs }

theorem receiveBits_consistent (count : Nat) {s : State} (hs : Consistent s) : Consistent (receiveBits count s).2 := by
  rw [receiveBits_eq]
  exact { hs with swclkLow := swclk_ite_low hs _, oeFollowsDir := swdioOe_floated hs }

theorem receiveBitsParity_consistent (count : Nat) {s : State} (hs : Consistent s) :
    Consistent (receiveBitsParity count s).2 := by
  rw [receiveBitsParity_eq]
  exact { hs with swclkLow := rfl, oeFollowsDir := rfl }

theorem sendBits_quiet (bits : Word) (count : Nat) (s : State) : Quiet s (sendBits bits count s) := by
  have h : SwdOnly s (sendBits bits count s) := by rw [sendBits_eq]; rfl
  exact h.quiet (by simp [sendBits_eq]) (sendBits_consistent bits count)

theorem sendBitsParity_quiet (value : Word) (count : Nat) (s : State) : Quiet s (sendBitsParity value count s) := by
  have h : SwdOnly s (sendBitsParity value count s) := by rw [sendBitsParity_eq]; rfl
  exact h.quiet (by simp [sendBitsParity_eq]) (sendBitsParity_consistent value count)

theorem receiveBits_quiet (count : Nat) (s : State) : Quiet s (receiveBits count s).2 := by
  have h : SwdOnly s (receiveBits count s).2 := by rw [receiveBits_eq]; rfl
  exact h.quiet (by simp [receiveBits_eq]) (receiveBits_consistent count)

theorem receiveBitsParity_quiet (count : Nat) (s : State) : Quiet s (receiveBitsParity count s).2 := by
  have h : SwdOnly s (receiveBitsParity count s).2 := by rw [receiveBitsParity_eq]; rfl
  exact h.quiet (by simp [receiveBitsParity_eq]) (receiveBitsParity_consistent count)

theorem turnLine_consistent {s : State} (hs : Consistent s) : Consistent (turnLine s) :=
  turnLine_eq s ▸ turnaround_consistent _ hs

/-! #### Commands -/

/-- What a command that makes no access does: its outcome is Ok or Refused, which are those of R205 (e). -/
structure QuietCommand (s : State) (r : CmdOutcome × State) : Prop where
  quiet : Quiet s r.2
  outcome : (∃ v, r.1 = .ok v) ∨ ∃ why, r.1 = .refused why

theorem Quiet.ok {s t : State} (h : Quiet s t) (v : Value) : QuietCommand s (.ok v, t) := ⟨h, .inl ⟨v, rfl⟩⟩

theorem quietCommand_refused (why : Reason) (s : State) : QuietCommand s (.refused why, s) :=
  ⟨.refl s, .inr ⟨why, rfl⟩⟩

/-- The shape of the counted commands: the count refused, or the loop run to its end (R87, R113). -/
theorem quietCommand_counted {c : Prop} [Decidable c] (why : Reason) (v : Value) {s t : State} (h : Quiet s t) :
    QuietCommand s (if c then (.refused why, s) else (.ok v, t)) := by
  split
  exacts [quietCommand_refused why s, h.ok v]

theorem readRegister_quiet (x : Option Word) (s : State) : QuietCommand s (readRegister x s) := by
  cases x with
  | none => exact quietCommand_refused _ s
  | some v => exact (Quiet.refl s).ok _

theorem commandBody_quiet {i : Instr} (hi : i.format = .cmd) (hn : ¬MakesAccess i) (s : State) :
    QuietCommand s (commandBody i s) := by
  cases i with
  | jtagReset => exact (jtagReset_quiet s).ok _
  | jtagNext tms tdi => exact (jtagNext_quiet tms tdi s).ok _
  | shiftTmsSequence bits count => exact quietCommand_counted _ _ (clockTms_quiet _ s)
  | shiftData tdi count finalTms => exact quietCommand_counted _ _ (clockData_quiet finalTms _ s)
  | shiftDataDiscardOutput tdi count finalTms => exact quietCommand_counted _ _ (clockData_quiet finalTms _ s)
  | seqOut bits count => exact quietCommand_counted _ _ (sendBits_quiet bits count s)
  | seqOutWithParity value count => exact quietCommand_counted _ _ (sendBitsParity_quiet value count s)
  | seqIn count => exact quietCommand_counted _ _ (receiveBits_quiet count s)
  | seqInWithParity count => exact quietCommand_counted _ _ (receiveBitsParity_quiet count s)
  | setDelay n => exact (quiet_delayCount s n).ok _
  | faultRead => exact (Quiet.refl s).ok _
  | idcodeRead => exact readRegister_quiet s.idcode s
  | targetidRead => exact readRegister_quiet s.targetid s
  | lowAccess | dpRead | dpWrite | dpAbort | apRead | apWrite | dpAttach => exact absurd (by simp [MakesAccess]) hn
  | _ => cases hi

/-! #### Wire items -/

theorem sendRequest_consistent (apndp rnw : Bool) (a : BitVec 2) {s : State} (hs : Consistent s) :
    Consistent (sendRequest Config.params apndp rnw a s) := sendBits_consistent _ 8 { hs with }

theorem receiveAck_consistent {s : State} (hs : Consistent s) : Consistent (receiveAck s) := by
  rw [receiveAck_eq]
  exact { hs with swclkLow := rfl, oeFollowsDir := swdioOe_floated hs }

theorem writeDataPhase_consistent (data : Word) {s : State} (hs : Consistent s) : Consistent (writeDataPhase data s) :=
  sendBitsParity_consistent data 32 { hs with }

theorem readDataPhase_consistent {s : State} (hs : Consistent s) : Consistent (readDataPhase s) := by
  rw [readDataPhase_eq]
  exact { hs with swclkLow := rfl, oeFollowsDir := rfl }

theorem presentSwdio_consistent (bs : List Bool) {s : State} (hs : Consistent s) : Consistent (presentSwdio bs s) :=
  { hs with }

/-- Row S_REQ uses one of the transmissions left (R141). -/
theorem leaveReq_consistent {s : State} (hs : Consistent s) (hp : s.phase = .req) : Consistent (leaveReq s) :=
  { hs with
    triesBounded := hs.triesLeft hp
    triesLeft := fun h => (nomatch h)
    triesStarted := fun _ => Nat.succ_pos _ }

/-- Row S_ACK leads back to S_REQ only where a transmission is left (R142). -/
theorem leaveAck_consistent {s : State} (hs : Consistent s) (ht : 1 ≤ s.tries) :
    Consistent (leaveAck Config.params s) := by
  unfold leaveAck
  split
  case h_1 => exact { hs with triesLeft := fun h => by cases hr : reqRnw s.req <;> simp [hr] at h, triesStarted := fun _ => ht }
  case h_2 => exact { hs with triesLeft := fun h => by by_contra hb; simp [if_neg hb] at h, triesStarted := fun _ => ht }
  all_goals exact { hs with triesLeft := fun h => (nomatch h), triesStarted := fun _ => ht }

/-- Rows S_WDATA and S_RDATA lead to S_DONE (R141). -/
theorem leaveData_consistent {s : State} (hs : Consistent s) (ht : 1 ≤ s.tries) : Consistent (leaveData s) :=
  { hs with triesLeft := fun h => (nomatch h), triesStarted := fun _ => ht }

theorem requestStep_consistent (apndp rnw : Bool) (a : BitVec 2) {s : State} (hs : Consistent s) :
    Consistent (requestStep apndp rnw a s) := by
  have hc := sendRequest_consistent apndp rnw a hs
  unfold requestStep
  split
  case isTrue hp => exact leaveReq_consistent hc (by rw [sendRequest_eq]; exact hp)
  case isFalse => exact hc

theorem ackStep_consistent (v : BitVec 3) {s : State} (hs : Consistent s) : Consistent (ackStep v s) := by
  have hc := receiveAck_consistent (presentSwdio_consistent (bitsOf v 3) hs)
  unfold ackStep
  split
  case isTrue hp => exact leaveAck_consistent hc (by rw [receiveAck_eq]; exact hs.triesStarted (.inl hp))
  case isFalse => exact hc

theorem dataWStep_consistent (data : Word) {s : State} (hs : Consistent s) : Consistent (dataWStep data s) := by
  have hc := writeDataPhase_consistent data hs
  unfold dataWStep
  split
  case isTrue hp =>
    exact leaveData_consistent hc (by rw [writeDataPhase_eq]; exact hs.triesStarted (.inr (.inl hp)))
  case isFalse => exact hc

theorem dataRStep_consistent (data : Word) (par : Bool) {s : State} (hs : Consistent s) :
    Consistent (dataRStep data par s) := by
  have hc := readDataPhase_consistent (presentSwdio_consistent (bitsOf data 32 ++ [par]) hs)
  unfold dataRStep
  split
  case isTrue hp =>
    exact leaveData_consistent hc (by rw [readDataPhase_eq]; exact hs.triesStarted (.inr (.inr (.inl hp))))
  case isFalse => exact hc

theorem WireMeaning.consistent {f : Format} {op : State → State} (h : WireMeaning f op) {s : State}
    (hs : Consistent s) : Consistent (op s) := by
  cases h with
  | request apndp rnw a => exact requestStep_consistent apndp rnw a hs
  | ack v => exact ackStep_consistent v hs
  | dataW data => exact dataWStep_consistent data hs
  | dataR data par => exact dataRStep_consistent data par hs
  | turn => exact turnLine_consistent hs
  | tmsseq bits count => exact clockTms_consistent _ hs
  | shift tdi count finalTms => exact clockData_consistent finalTms _ hs

/-- Outside its row a wire item is its pin events and the framer's registers alone (log 26). -/
theorem WireMeaning.quiet {f : Format} {op : State → State} (h : WireMeaning f op) {s : State} (hp : s.phase = .idle) :
    Quiet s (op s) := by
  have hg := (h.trackMove s).grows
  have hc : Consistent s → Consistent (op s) := h.consistent
  cases h with
  | request apndp rnw a =>
    exact (requestStep_packetOnly apndp rnw a s).quiet hg hc (by simp [SameControl, requestStep, sendRequest_eq, hp])
      (by simp [requestStep, sendRequest_eq, hp])
  | ack v =>
    exact (ackStep_packetOnly v s).quiet hg hc (by simp [SameControl, ackStep, receiveAck_eq, hp])
      (by simp [ackStep, receiveAck_eq, hp])
  | dataW data =>
    exact (dataWStep_packetOnly data s).quiet hg hc (by simp [SameControl, dataWStep, writeDataPhase_eq, hp])
      (by simp [dataWStep, writeDataPhase_eq, hp])
  | dataR data par =>
    exact (dataRStep_packetOnly data par s).quiet hg hc (by simp [SameControl, dataRStep, readDataPhase_eq, hp])
      (by simp [dataRStep, readDataPhase_eq, hp])
  | turn => exact (turnLine_swdOnly s).quiet hg hc
  | tmsseq bits count => exact (clockTms_jtagOnly _ s).quiet hg hc
  | shift tdi count finalTms => exact (clockData_jtagOnly _ _ s).quiet hg hc

/-! ### One access -/

theorem lowAccess_consistent (rnw : Bool) (addr : BitVec 9) (v : Word) {s : State} (hs : Consistent s) :
    Consistent (lowAccess Config.params rnw addr v s).2 := by
  rcases lowAccess_cases rnw addr v s with ⟨-, h⟩ | ⟨-, n, pin, hn, ⟨ack, -, -, h⟩ | ⟨-, w, par, h⟩ | ⟨-, h⟩⟩ <;>
    rw [h]
  · exact hs
  all_goals
    exact
      { hs with
        swclkLow := rfl
        oeFollowsDir := rfl
        triesBounded := hn
        triesLeft := fun h => (nomatch h)
        triesStarted := by simp }

/-- An access that is made sends at least one request (R141). -/
theorem lowAccess_tries {addr : BitVec 9} (ha : addrAligned addr = true) (rnw : Bool) (v : Word) (s : State) :
    1 ≤ (lowAccess Config.params rnw addr v s).2.tries := by
  rcases lowAccess_cases rnw addr v s with ⟨hf, -⟩ | ⟨-, n, pin, -, ⟨ack, -, -, h⟩ | ⟨-, w, par, h⟩ | ⟨-, h⟩⟩
  · exact absurd ha (ne_true_of_eq_false hf)
  all_goals rw [h]; exact Nat.succ_pos n

theorem requestByte_mem_requestBytes (apndp rnw : Bool) (a : BitVec 2) : requestByte apndp rnw a ∈ requestBytes := by
  revert a; revert apndp rnw; decide

/-- The last transaction of an access begins, in the trace, with its request and its acknowledge. -/
theorem accessEvents_eq (s : State) (r : Byte) (n : Nat) (ack : BitVec 3) :
    accessEvents s r n ack =
      waitEvents (delayEvents s.delayCount) r n s.swdDir
        ++ turnEvents (delayEvents s.delayCount) (waitDir n s.swdDir) .drive
        ++ (outCycles (delayEvents s.delayCount) (bitsOf r 8) ++ ackEvents (delayEvents s.delayCount) ack) := by
  simp [accessEvents, requestEvents]

theorem faultTransaction_infix (s : State) (r : Byte) (n : Nat) :
    faultTransaction (delayEvents s.delayCount) r <:+: s.trace ++ accessEvents s r n 4 := by
  rw [accessEvents_eq, ← List.append_assoc]
  exact (List.suffix_append ..).isInfix

theorem readTransaction_infix (s : State) (r : Byte) (n : Nat) (w : Word) :
    readTransaction (delayEvents s.delayCount) r w
      <:+: s.trace ++ accessEvents s r n 1 ++ readEvents (delayEvents s.delayCount) w (parity w) := by
  rw [accessEvents_eq, ← List.append_assoc, List.append_assoc]
  exact (List.suffix_append ..).isInfix

/-- Of R205 (h): with the latch set, some transaction in the trace was acknowledged FAULT. -/
def FaultShown (s : State) : Prop :=
  s.fault = true → ∃ r ∈ requestBytes, ∃ delayCount : Word, faultTransaction (delayEvents delayCount) r <:+: s.trace

theorem FaultShown.of_kept {s t : State} (hs : FaultShown s) (hf : t.fault = true → s.fault = true)
    (hg : s.trace <+: t.trace) : FaultShown t := by
  intro ht
  obtain ⟨r, hr, d, hin⟩ := hs (hf ht)
  exact ⟨r, hr, d, hin.trans hg.isInfix⟩

/-- An access sets the latch only with a transaction acknowledged FAULT, its last one (R143). -/
theorem lowAccess_faultShown (rnw : Bool) (addr : BitVec 9) (v : Word) {s : State} (hs : FaultShown s) :
    FaultShown (lowAccess Config.params rnw addr v s).2 := by
  have hg := (lowAccess_trackMove rnw addr v s).grows
  rcases lowAccess_cases rnw addr v s with ⟨-, h⟩ | ⟨-, n, pin, -, ⟨ack, -, -, h⟩ | ⟨-, w, par, h⟩ | ⟨-, h⟩⟩ <;>
    rw [h] at hg ⊢
  · exact hs
  · by_cases h4 : ack = 4
    · subst h4
      exact fun _ => ⟨_, requestByte_mem_requestBytes .., s.delayCount, faultTransaction_infix s _ n⟩
    · exact hs.of_kept (fun ht => (if_neg h4 : _ = s.fault) ▸ ht) hg
  · exact hs.of_kept id hg
  · refine hs.of_kept (fun ht => ?_) hg
    by_cases hab : addrApndp addr = false ∧ addrSlot addr = 0
    · exact absurd ((if_pos hab).symm.trans ht) Bool.false_ne_true
    · exact (if_neg hab).symm.trans ht

theorem readOutcome_eq_ok {v w : Word} {par : Bool} (h : readOutcome v par = .ok (.word w)) : v = w ∧ par = parity w := by
  unfold readOutcome at h
  split at h
  case isTrue hpar => cases h; exact ⟨rfl, hpar⟩
  case isFalse => cases h

/-- A read access that ended Ok brought its word in a transaction acknowledged OK with the right parity (R173). -/
theorem lowAccess_readTransaction {addr : BitVec 9} {r : Byte} {s : State} {w : Word}
    (hr : requestByte (addrApndp addr) true (addrSlot addr) = r)
    (h : (lowAccess Config.params true addr 0 s).1 = .ok (.word w)) :
    readTransaction (delayEvents s.delayCount) r w <:+: (lowAccess Config.params true addr 0 s).2.trace := by
  subst hr
  rcases lowAccess_cases true addr 0 s with ⟨-, e⟩ | ⟨-, n, pin, -, ⟨ack, -, -, e⟩ | ⟨-, x, par, e⟩ | ⟨hf, -⟩⟩
  · rw [e] at h; cases h
  · rw [e] at h; exact absurd h (noDataOutcome_ne_ok ack _)
  · rw [e] at h ⊢
    obtain ⟨rfl, rfl⟩ := readOutcome_eq_ok h
    exact readTransaction_infix s _ n x
  · cases hf

/-! ### What holds between commands -/

theorem between_of_quiet {s t : State} (hs : BetweenCommands s) (h : Quiet s t) : BetweenCommands t := by
  obtain ⟨hc, hg, ⟨hph, htr⟩, hsel, ⟨hf, hid, htid⟩, ho⟩ := h
  exact
    { consistent := hc hs.consistent
      idle := hph.trans hs.idle
      noAccessYet := by rw [htr, hf, hsel.1, hid, ho]; exact hs.noAccessYet
      idcodeRead := fun v hv => (hs.idcodeRead v (hid ▸ hv)).imp fun _ hin => hin.trans hg.isInfix
      targetidRead := fun w hw => (hs.targetidRead w (htid ▸ hw)).imp fun _ hin => hin.trans hg.isInfix
      tracked := (TrackMove.of_same hg hph hsel).tracked hs.tracked
      faultAcknowledged := FaultShown.of_kept hs.faultAcknowledged (hf ▸ id) hg }

/-- The outcome handed over is Ok or Refused, or an access was made (R205 (e)). -/
theorem endCommand_between {r : CmdOutcome × State} (hs : BetweenCommands r.2)
    (h : ((∃ v, r.1 = .ok v) ∨ ∃ why, r.1 = .refused why) ∨ 1 ≤ r.2.tries) : BetweenCommands (endCommand r) :=
  { hs with
    consistent := { hs.consistent with }
    noAccessYet := fun h0 => by
      obtain ⟨hf, hv, hid, ho⟩ := hs.noAccessYet h0
      refine ⟨hf, hv, hid, fun o hmem => ?_⟩
      rcases List.mem_append.mp hmem with hmem | hmem
      · exact ho o hmem
      · rw [List.mem_singleton.mp hmem]
        exact h.resolve_right (Nat.not_le.mpr (Nat.lt_one_iff.mpr h0)) }

theorem lowAccess_between {addr : BitVec 9} (ha : addrAligned addr = true) (rnw : Bool) (v : Word) {s : State}
    (hs : BetweenCommands s) : BetweenCommands (lowAccess Config.params rnw addr v s).2 := by
  have hm := lowAccess_trackMove rnw addr v s
  obtain ⟨hid, htid⟩ := (lowAccess_accessOnly rnw addr v s).idcode_targetid
  exact
    { consistent := lowAccess_consistent rnw addr v hs.consistent
      idle := hm.idle hs.idle
      noAccessYet := fun h0 => absurd h0 (Nat.ne_of_gt (lowAccess_tries ha rnw v s))
      idcodeRead := fun w hw => (hs.idcodeRead w (hid ▸ hw)).imp fun _ hin => hin.trans hm.grows.isInfix
      targetidRead := fun w hw => (hs.targetidRead w (htid ▸ hw)).imp fun _ hin => hin.trans hm.grows.isInfix
      tracked := hm.tracked hs.tracked
      faultAcknowledged := lowAccess_faultShown rnw addr v hs.faultAcknowledged }

/-! #### Loading the registers of `dp_attach` -/

theorem idcode_loaded_consistent {s : State} (hs : Consistent s) (v : Word) : Consistent { s with idcode := some v } :=
  { hs with targetidNeedsIdcode := fun h => ⟨(hs.targetidNeedsIdcode h).1, rfl⟩ }

theorem targetid_loaded_consistent {s : State} (hs : Consistent s) (w : Word) (hd : Config.params.open5.dpV2 = true)
    (hi : s.idcode.isSome = true) : Consistent { s with targetid := some w } :=
  { hs with targetidNeedsIdcode := fun _ => ⟨hd, hi⟩ }

theorem idcode_loaded_between {s : State} {v delayCount : Word} (hs : BetweenCommands s) (ht : 1 ≤ s.tries)
    (hv : readTransaction (delayEvents delayCount) 0xA5 v <:+: s.trace) :
    BetweenCommands { s with idcode := some v } :=
  { hs with
    consistent := idcode_loaded_consistent hs.consistent v
    noAccessYet := fun h0 => absurd h0 (Nat.ne_of_gt ht)
    idcodeRead := fun x hx => by cases hx; exact ⟨delayCount, hv⟩ }

theorem targetid_loaded_between {s : State} {w delayCount : Word} (hs : BetweenCommands s) (ht : 1 ≤ s.tries)
    (hd : Config.params.open5.dpV2 = true) (hi : s.idcode.isSome = true)
    (hw : readTransaction (delayEvents delayCount) 0x8D w <:+: s.trace) :
    BetweenCommands { s with targetid := some w } :=
  { hs with
    consistent := targetid_loaded_consistent hs.consistent w hd hi
    noAccessYet := fun h0 => absurd h0 (Nat.ne_of_gt ht)
    targetidRead := fun x hx => by cases hx; exact ⟨delayCount, hw⟩ }

/-! ### The moves of the sequencer -/

/-- One move of a command that makes accesses: an access, or one of the two reads of `dp_attach` with the register it loads
(R154). -/
inductive SequencerMove (s : State) : State → Prop
  | access (rnw : Bool) {addr : BitVec 9} (v : Word) (ha : addrAligned addr = true) :
    SequencerMove s (lowAccess Config.params rnw addr v s).2
  | loadIdcode {v : Word} (hv : (lowAccess Config.params true (slotAddr 0) 0 s).1 = .ok (.word v)) :
    SequencerMove s { (lowAccess Config.params true (slotAddr 0) 0 s).2 with idcode := some v }
  | loadTargetid {w : Word} (hd : Config.params.open5.dpV2 = true) (hi : s.idcode.isSome = true)
    (hw : (lowAccess Config.params true (fullAddr false targetidAddr) 0 s).1 = .ok (.word w)) :
    SequencerMove s { (lowAccess Config.params true (fullAddr false targetidAddr) 0 s).2 with targetid := some w }

theorem SequencerMove.tries {s t : State} (h : SequencerMove s t) : 1 ≤ t.tries := by
  cases h with
  | access rnw v ha => exact lowAccess_tries ha rnw v s
  | loadIdcode hv => exact lowAccess_tries (addrAligned_slotAddr 0) true 0 s
  | loadTargetid hd hi hw => exact lowAccess_tries (by decide) true 0 s

theorem SequencerMove.consistent {s t : State} (h : SequencerMove s t) (hs : Consistent s) : Consistent t := by
  cases h with
  | access rnw v ha => exact lowAccess_consistent rnw _ v hs
  | loadIdcode hv => exact idcode_loaded_consistent (lowAccess_consistent true _ 0 hs) _
  | loadTargetid hd hi hw =>
    refine targetid_loaded_consistent (lowAccess_consistent true _ 0 hs) _ hd ?_
    rwa [(lowAccess_accessOnly true _ 0 s).idcode_targetid.1]

theorem SequencerMove.between {s t : State} (h : SequencerMove s t) (hs : BetweenCommands s) : BetweenCommands t := by
  cases h with
  | access rnw v ha => exact lowAccess_between ha rnw v hs
  | loadIdcode hv =>
    have ha := addrAligned_slotAddr 0
    exact idcode_loaded_between (lowAccess_between ha true 0 hs) (lowAccess_tries ha true 0 s)
      (lowAccess_readTransaction (by decide) hv)
  | loadTargetid hd hi hw =>
    have ha : addrAligned (fullAddr false targetidAddr) = true := by decide
    refine targetid_loaded_between (lowAccess_between ha true 0 hs) (lowAccess_tries ha true 0 s) hd ?_
      (lowAccess_readTransaction (by decide) hw)
    rwa [(lowAccess_accessOnly true _ 0 s).idcode_targetid.1]

/-- What every move keeps, any number of moves keeps. -/
theorem preserved_of_moves {P : State → Prop} (hP : ∀ {s t}, SequencerMove s t → P s → P t) {s t : State}
    (h : TransGen SequencerMove s t) (hs : P s) : P t := by
  induction h with
  | single h => exact hP h hs
  | tail _ h ih => exact hP h ih

/-! ### Commands that make accesses -/

/-- `dp_attach` begins by dropping what the connection held (R154). -/
def dropConnection (s : State) : State := { s with fault := false, selValid := false, idcode := none, targetid := none }

theorem dropConnection_consistent {s : State} (hs : Consistent s) : Consistent (dropConnection s) :=
  { hs with targetidNeedsIdcode := fun h => nomatch h }

theorem dropConnection_between {s : State} (hs : BetweenCommands s) : BetweenCommands (dropConnection s) where
  consistent := dropConnection_consistent hs.consistent
  idle := hs.idle
  noAccessYet h0 := by
    obtain ⟨-, -, -, ho⟩ := hs.noAccessYet h0
    exact ⟨rfl, rfl, rfl, ho⟩
  idcodeRead _ h := nomatch h
  targetidRead _ h := nomatch h
  tracked h := nomatch h
  faultAcknowledged h := nomatch h

/-- All a command that makes accesses can do: be refused with nothing changed, or make one move or more, `dp_attach` after
dropping the connection. -/
inductive AccessCommand (s : State) (r : CmdOutcome × State) : Prop
  | refused (why : Reason) (h : r = (.refused why, s))
  | made (h : TransGen SequencerMove s r.2)
  | attached (h : TransGen SequencerMove (dropConnection s) r.2)

/-- A bank step is elided and Ok, or it is one access (R145). -/
theorem ensureSelectDp_move (bank : BitVec 4) (s : State) :
    ensureSelectDp Config.params bank s = (.ok .nothing, s)
      ∨ SequencerMove s (ensureSelectDp Config.params bank s).2 := by
  unfold ensureSelectDp
  split
  · exact .inl rfl
  · exact .inr (.access _ _ (addrAligned_slotAddr _))

theorem ensureSelectAp_move (apsel : BitVec 8) (bank : BitVec 4) (s : State) :
    ensureSelectAp Config.params apsel bank s = (.ok .nothing, s)
      ∨ SequencerMove s (ensureSelectAp Config.params apsel bank s).2 := by
  unfold ensureSelectAp
  split
  · exact .inl rfl
  · exact .inr (.access _ _ (addrAligned_slotAddr _))

/-- A bank step and the access after it: a step that did not end Ok was made (R150). -/
theorem moves_of_andThenOk {s : State} {r : CmdOutcome × State} {next : State → CmdOutcome × State}
    (h : r = (.ok .nothing, s) ∨ SequencerMove s r.2) (h' : SequencerMove r.2 (next r.2).2) :
    TransGen SequencerMove s (andThenOk r next).2 := by
  rcases andThenOk_cases r next with ⟨e, hne⟩ | ⟨e, -⟩ <;> rw [e]
  · exact .single (h.resolve_left fun hr => hne .nothing (congrArg Prod.fst hr))
  · rcases h with rfl | hm
    exacts [.single h', .tail (.single hm) h']

theorem dpRead_moves {addr : Byte} (ha : addrAligned addr = true) (s : State) :
    TransGen SequencerMove s (dpRead Config.params addr s).2 := by
  rw [dpRead, if_pos ha]
  exact moves_of_andThenOk (ensureSelectDp_move _ s) (.access _ _ (addrAligned_fullAddr false ha))

theorem dpWrite_moves {addr : Byte} (ha : addrAligned addr = true) (v : Word) (s : State) :
    TransGen SequencerMove s (dpWrite Config.params addr v s).2 := by
  have hfull := addrAligned_fullAddr false ha
  rw [dpWrite, if_pos ha]
  split
  · exact .single (.access _ _ hfull)
  · exact moves_of_andThenOk (ensureSelectDp_move _ s) (.access _ _ hfull)

theorem apRead_moves {addr : Byte} (ha : addrAligned addr = true) (apsel : Byte) (s : State) :
    TransGen SequencerMove s (apRead Config.params apsel addr s).2 := by
  rw [apRead, if_pos ha]
  exact moves_of_andThenOk (ensureSelectAp_move _ _ s) (.access _ _ (addrAligned_fullAddr true ha))

theorem apWrite_moves {addr : Byte} (ha : addrAligned addr = true) (apsel : Byte) (v : Word) (s : State) :
    TransGen SequencerMove s (apWrite Config.params apsel addr v s).2 := by
  rw [apWrite, if_pos ha]
  exact moves_of_andThenOk (ensureSelectAp_move _ _ s) (.access _ _ (addrAligned_fullAddr true ha))

/-- The read of TARGETID that ended Ok: its bank step, which leaves `idcode`, and its last access with the word loaded. -/
theorem targetid_moves {s : State} {w : Word} (hd : Config.params.open5.dpV2 = true) (hi : s.idcode.isSome = true)
    (hw : (dpRead Config.params targetidAddr s).1 = .ok (.word w)) :
    TransGen SequencerMove s { (dpRead Config.params targetidAddr s).2 with targetid := some w } := by
  have hid := (ensureSelectDp_accessOnly (addrBank targetidAddr) s).idcode_targetid.1
  have hm := ensureSelectDp_move (addrBank targetidAddr) s
  rw [dpRead, if_pos (by decide)] at hw ⊢
  generalize ensureSelectDp Config.params (addrBank targetidAddr) s = r at *
  rcases andThenOk_cases r (lowAccess Config.params true (fullAddr false targetidAddr) 0) with ⟨e, hne⟩ | ⟨e, -⟩
  · exact absurd (e ▸ hw) (hne _)
  · rw [e] at hw ⊢
    have hload := SequencerMove.loadTargetid hd (hid ▸ hi) hw
    rcases hm with rfl | hm
    exacts [.single hload, .tail (.single hm) hload]

theorem dpAttach_moves (s : State) : TransGen SequencerMove (dropConnection s) (dpAttach Config.params s).2 := by
  obtain ⟨r, hr, h⟩ := dpAttach_cases s
  have hr : r = lowAccess Config.params true (slotAddr 0) 0 (dropConnection s) := hr
  subst hr
  rcases h with ⟨e, -⟩ | ⟨v, hv, ⟨-, e⟩ | ⟨hd, r2, rfl, ⟨e, -⟩ | ⟨w, hw, e⟩⟩⟩ <;> rw [e]
  · exact .single (.access _ _ (addrAligned_slotAddr 0))
  · exact .single (.loadIdcode hv)
  · exact (TransGen.single (.loadIdcode hv)).trans (dpRead_moves (by decide) _)
  · exact (TransGen.single (.loadIdcode hv)).trans (targetid_moves hd rfl hw)

/-- The shape of the commands with an address: made if it is aligned, refused if not (R46). -/
theorem accessCommand_of_aligned {w : Nat} {addr : BitVec w} {s : State} {r : CmdOutcome × State}
    (h : addrAligned addr = true → TransGen SequencerMove s r.2)
    (h' : addrAligned addr = false → r = (.refused .badAddress, s)) : AccessCommand s r := by
  cases ha : addrAligned addr with
  | true => exact .made (h ha)
  | false => exact .refused _ (h' ha)

theorem format_of_makesAccess {i : Instr} (h : MakesAccess i) : i.format = .cmd := by
  rcases h with rfl | ⟨_, _, _, rfl⟩ | ⟨_, rfl⟩ | ⟨_, _, rfl⟩ | ⟨_, rfl⟩ | ⟨_, _, rfl⟩ | ⟨_, _, _, rfl⟩ <;> rfl

theorem commandBody_access {i : Instr} (h : MakesAccess i) (s : State) : AccessCommand s (commandBody i s) := by
  rcases h with rfl | ⟨rnw, addr, v, rfl⟩ | ⟨addr, rfl⟩ | ⟨addr, v, rfl⟩ | ⟨v, rfl⟩ | ⟨apsel, addr, rfl⟩
    | ⟨apsel, addr, v, rfl⟩
  · exact .attached (dpAttach_moves s)
  · exact accessCommand_of_aligned (fun ha => .single (.access rnw v ha)) (lowAccess_misaligned · rnw v s)
  · exact accessCommand_of_aligned (dpRead_moves · s) (dpRead_misaligned · s)
  · exact accessCommand_of_aligned (dpWrite_moves · v s) (dpWrite_misaligned · v s)
  · exact .made (.single (.access false v (addrAligned_slotAddr _)))
  · exact accessCommand_of_aligned (apRead_moves · apsel s) (apRead_misaligned · apsel s)
  · exact accessCommand_of_aligned (apWrite_moves · apsel v s) (apWrite_misaligned · apsel v s)

theorem AccessCommand.consistent {s : State} {r : CmdOutcome × State} (h : AccessCommand s r) (hs : Consistent s) :
    Consistent r.2 := by
  cases h with
  | refused why h => rwa [h]
  | made h => exact preserved_of_moves SequencerMove.consistent h hs
  | attached h => exact preserved_of_moves SequencerMove.consistent h (dropConnection_consistent hs)

theorem AccessCommand.between {s : State} {r : CmdOutcome × State} (h : AccessCommand s r) (hs : BetweenCommands s) :
    BetweenCommands r.2 := by
  cases h with
  | refused why h => rwa [h]
  | made h => exact preserved_of_moves SequencerMove.between h hs
  | attached h => exact preserved_of_moves SequencerMove.between h (dropConnection_between hs)

theorem tries_of_moves {s t : State} (h : TransGen SequencerMove s t) : 1 ≤ t.tries := by
  cases h with
  | single h => exact h.tries
  | tail _ h => exact h.tries

/-- A command that makes accesses is refused with nothing changed, or leaves `tries` at least 1 (R205 (e)). -/
theorem AccessCommand.refused_or_tries {s : State} {r : CmdOutcome × State} (h : AccessCommand s r) :
    (∃ why, r = (.refused why, s)) ∨ 1 ≤ r.2.tries := by
  cases h with
  | refused why h => exact .inl ⟨why, h⟩
  | made h => exact .inr (tries_of_moves h)
  | attached h => exact .inr (tries_of_moves h)

/-! ### Instructions -/

theorem exec_consistent {i : Instr} {s t : State} (hs : Consistent s) (h : exec i s = .next t) : Consistent t := by
  by_cases hc : i.format = .cmd
  · obtain ⟨-, rfl⟩ := exec_command_next hc h
    have hb : Consistent (commandBody i s).2 := by
      by_cases hm : MakesAccess i
      · exact (commandBody_access hm s).consistent hs
      · exact (commandBody_quiet hc hm s).quiet.consistent hs
    exact { hb with }
  · obtain ⟨op, hop, he⟩ := exec_wire hc
    rw [he] at h; cases h
    exact hop.consistent hs

theorem exec_between {i : Instr} {s t : State} (hs : BetweenCommands s) (h : exec i s = .next t) :
    BetweenCommands t := by
  by_cases hc : i.format = .cmd
  · obtain ⟨-, rfl⟩ := exec_command_next hc h
    by_cases hm : MakesAccess i
    · have hb := commandBody_access hm s
      refine endCommand_between (hb.between hs) ?_
      rcases hb.refused_or_tries with ⟨why, e⟩ | ht
      · exact .inl (.inr ⟨why, congrArg Prod.fst e⟩)
      · exact .inr ht
    · have hb := commandBody_quiet hc hm s
      exact endCommand_between (between_of_quiet hs hb.quiet) (.inl hb.outcome)
  · obtain ⟨op, hop, he⟩ := exec_wire hc
    rw [he] at h; cases h
    exact between_of_quiet hs (hop.quiet hs.idle)

theorem exec_access_tries {i : Instr} {s t : State} (hm : MakesAccess i) (h : exec i s = .next t) :
    (∃ r, t = { s with outcomes := s.outcomes ++ [.refused r] }) ∨ 1 ≤ t.tries := by
  obtain ⟨-, rfl⟩ := exec_command_next (format_of_makesAccess hm) h
  refine (commandBody_access hm s).refused_or_tries.imp_left fun ⟨why, e⟩ => ⟨why, ?_⟩
  rw [e]; rfl

theorem exec_noAccess_tries {i : Instr} {s t : State} (hp : s.phase = .idle) (hm : ¬MakesAccess i)
    (h : exec i s = .next t) : t.tries = s.tries := by
  by_cases hc : i.format = .cmd
  · obtain ⟨-, rfl⟩ := exec_command_next hc h
    exact (commandBody_quiet hc hm s).quiet.control.2
  · obtain ⟨op, hop, he⟩ := exec_wire hc
    rw [he] at h; cases h
    exact (hop.quiet hp).control.2

/-! ### Steps -/

/-- With nothing presented a step does nothing, runs an instruction on the sampled bits, or ends an access (R141, R201). -/
theorem fetchPhase_cases (s : State) :
    fetchPhase s = .settle (.next s) ∨ (∃ i pin, fetchPhase s = .run i { s with swdioIn := pin })
      ∨ fetchPhase s = .settle (.next (doneStep Config.params s)) := by
  unfold fetchPhase
  split
  · exact .inl rfl
  · exact .inr (.inl ⟨_, s.swdioIn, rfl⟩)
  · exact .inr (.inl ⟨_, (s.swdioIn.draw Config.freeSwdioLevel 3).2, rfl⟩)
  · exact .inr (.inl ⟨_, s.swdioIn, rfl⟩)
  · exact .inr (.inl ⟨_, (s.swdioIn.draw Config.freeSwdioLevel 33).2, rfl⟩)
  · exact .inr (.inr rfl)

/-- All a step can do: nothing, one instruction in the state without its packet or its sampled bits, the refusal of an unknown
command code, or the row S_DONE (R70, R141, R201). -/
theorem step_cases {s t : State} (h : step s = .next t) :
    t = s ∨ (∃ i rest pin, exec i { s with port := rest, swdioIn := pin } = .next t)
    ∨ (∃ rest, t = { s with port := rest, outcomes := s.outcomes ++ [.refused .badCommand] })
    ∨ t = doneStep Config.params s := by
  cases hpt : s.port with
  | nil =>
    simp only [step, fetch, hpt] at h
    rcases fetchPhase_cases s with e | ⟨i, pin, e⟩ | e <;> rw [e] at h
    · cases h; exact .inl rfl
    · exact .inr (.inl ⟨i, s.port, pin, h⟩)
    · cases h; exact .inr (.inr (.inr rfl))
  | cons pk rest =>
    cases hd : decode pk.format pk.bytes with
    | ok r => exact .inr (.inl ⟨r.1, rest, s.swdioIn, (step_of_decode_ok hpt hd).symm.trans h⟩)
    | error e =>
      rw [step_of_decode_error hpt hd] at h
      cases e with
      | badCommand =>
        obtain ⟨-, rfl⟩ := runCommand_next h
        exact .inr (.inr (.inl ⟨rest, rfl⟩))
      | _ => cases h

/-- Row S_DONE: the bookkeeping of the end of an access leaves pins and `tries` alone, and the block idle (R141). -/
theorem finishAccess_consistent (apndp rnw : Bool) (a : BitVec 2) (v : Word) (c : AckClass) {s : State}
    (hs : Consistent s) : Consistent (finishAccess Config.params apndp rnw a v c s).2 := by
  cases c with
  | ok =>
    simp only [finishAccess, clearFaultOnAbort_eq, trackSelect_eq]
    exact { hs with triesLeft := fun h => (nomatch h), triesStarted := by simp }
  | wait | fault | invalid =>
    simp only [finishAccess, untrackSelect_eq]
    exact { hs with triesLeft := fun h => (nomatch h), triesStarted := by simp }

theorem step_consistent {s t : State} (hs : Consistent s) (h : step s = .next t) : Consistent t := by
  rcases step_cases h with rfl | ⟨i, rest, pin, he⟩ | ⟨rest, rfl⟩ | rfl
  · exact hs
  · exact exec_consistent (s := { s with port := rest, swdioIn := pin }) { hs with } he
  · exact { hs with }
  · exact { finishAccess_consistent _ _ _ _ _ hs with }

theorem step_between {s t : State} (hs : BetweenCommands s) (h : step s = .next t) : BetweenCommands t := by
  rcases step_idle_cases hs.idle h with rfl | ⟨i, rest, he⟩ | ⟨rest, rfl⟩
  · exact hs
  · exact exec_between (between_of_quiet hs (quiet_port s rest)) he
  · exact endCommand_between (r := (.refused .badCommand, { s with port := rest }))
      (between_of_quiet hs (quiet_port s rest)) (.inl (.inr ⟨_, rfl⟩))

/-- Settles O6: a step is one instruction or none; an instruction that makes no access leaves what `BetweenCommands` speaks of,
and one that does is moves of the sequencer, of which each keeps both invariants and sends a request. -/
theorem stepKeepsConsistency : Obligations.StepKeepsConsistency :=
  ⟨fun _ _ => step_consistent, fun _ _ => step_between, fun _ _ _ hp h =>
    ⟨(exec_access_tries · h), (exec_noAccess_tries hp · h)⟩⟩

end Sys2Proof.Machine
end
